-- ==== Sys2Proof/Word.lean ====
section
/-!
DEFINITION. The word, address and numbering types of the Orjem 6408.

Words are 16 bits and a memory address is an 18-bit word address (00_scope.md, Conventions); the
lines, contexts, slots, classes, bands and speed classes are numbered as that section numbers them.
-/

namespace Sys2Proof

/-- A 16-bit word of the memory array or of a cell. -/
abbrev Word := BitVec 16

/-- One byte: a character of a name or password, or half of a word fed to the check word. -/
abbrev Byte := BitVec 8

/-- An 18-bit word address of the 256 K word memory array. -/
abbrev Addr := BitVec 18

/-- A line-area word offset, 0000h to 7FFFh (R155). -/
abbrev Offset := BitVec 15

/-- A dial-in line, 0 to 63. -/
abbrev LineNo := Fin 64

/-- A sign-on context, 0 to 7. -/
abbrev CtxNo := Fin 8

/-- A directory slot, 0 to 2047. -/
abbrev SlotNo := Fin 2048

/-- An attention class, 0 to 7. -/
abbrev ClassNo := Fin 8

/-- A tariff band, 0 to 3. -/
abbrev BandNo := Fin 4

/-- A speed class, 0 to 3. -/
abbrev SpeedNo := Fin 4

end Sys2Proof
end

