-- ==== Sys2Proof/Syntax.lean ====
section
/-!
DEFINITION. The commands of the block: one constructor of Instr for each row of opcode_table.json,
in the table's order, with the operands that the row's rule gives the event.

A row that is a master cycle stands for the event of that cycle's TAKING (R156, R158): its operands
are what the cycle carries. Log 1 says how the rows and MASTER_CYCLE_ARRIVAL go together.
-/

namespace Sys2Proof

/-- The two bus masters (R156). -/
inductive Master where
  | processor
  | scanner
  deriving DecidableEq, Repr

/-- One master cycle: its master (SCYC), word address, direction and write data (R156). -/
structure Cycle where
  master : Master
  addr   : Addr
  write  : Bool
  data   : Word
  deriving DecidableEq, Repr

/-- The four account classes, in the order of their codes (R65, R174). -/
inductive AccountClass where
  | student
  | staff
  | guest
  | operator
  deriving DecidableEq, Repr

/-- The commands. `w` is a written word, `n` a line, `k` an attention class or a context. -/
inductive Instr where
  /-- Scanner write of line n's status word (R4). -/
  | statusWrite (n : LineNo) (w : Word)
  /-- Scanner write of entry i of line n's receive ring (R9). -/
  | receiveEntry (n : LineNo) (i : Fin 32) (w : Word)
  /-- Scanner read of line n's command word (R11). -/
  | commandWordRead (n : LineNo)
  /-- Scanner write to line n's command word (R12). -/
  | acknowledge (n : LineNo) (w : Word)
  /-- Processor write of HANG_UP to line n's command word (R13). -/
  | processorHangUp (n : LineNo)
  /-- Processor write to line n's transmit put cell (R14). -/
  | transmitPutWrite (n : LineNo) (w : Word)
  /-- Scanner write to line n's transmit take cell (R14). -/
  | transmitTakeWrite (n : LineNo) (w : Word)
  /-- The expiry of line n's carrier doubt (R8). -/
  | carrierDoubtExpiry (n : LineNo)
  /-- The expiry of the polite time of line n's forced command (R11). -/
  | politeTimeExpiry (n : LineNo)
  /-- The expiry of line n's clearing time (R17). -/
  | clearingTimeExpiry (n : LineNo)
  /-- Processor write of a line setting word whose load flag is set (R18, R19). -/
  | modeLoad (n : LineNo) (w : Word)
  /-- Processor write of a line setting word with a HANG request and no mode load (R18, R20). -/
  | hangRequest (n : LineNo) (w : Word)
  /-- Processor read of line n's session status word 0 (R21). -/
  | sessionStatusRead (n : LineNo)
  /-- The expiry of line n's ring-gone timer (R26). -/
  | ringGoneExpiry (n : LineNo)
  /-- The expiry of line n's answer timer (R34). -/
  | answerTimerExpiry (n : LineNo)
  /-- The expiry of context k's sign-on time (R42). -/
  | signOnTimeExpiry (k : CtxNo)
  /-- The start of service of the request at the head of the directory request queue (R70). -/
  | requestServiceStart
  /-- The completion of the lookup in service (R73). -/
  | lookupCompletion
  /-- The end of slot i's TIMED lock (R76). -/
  | lockEnd (i : SlotNo)
  /-- Processor write to the census cell (R81). -/
  | censusStart (w : Word)
  /-- Processor read of the census cell (R82). -/
  | censusRead
  /-- Processor write to staging word i (R86). -/
  | stagingWrite (i : Fin 16) (w : Word)
  /-- Processor write to the commit cell (R89). -/
  | commitWrite (w : Word)
  /-- The completion of the commit in service (R90). -/
  | commitCompletion
  /-- A short tick of the timebase (R100). -/
  | shortTick
  /-- A second tick of the timebase (R110). -/
  | secondTick
  /-- The expiry of the grace of line n's session (R114). -/
  | graceExpiry (n : LineNo)
  /-- A minute tick of the timebase (R102). -/
  | minuteTick
  /-- The idle minutes of line n's session reaching the idle limit (R116). -/
  | idleLimit (n : LineNo)
  /-- Processor write to the clock minute cell (R103). -/
  | clockMinuteWrite (w : Word)
  /-- Processor write to the clock day cell (R103). -/
  | clockDayWrite (w : Word)
  /-- Processor write to the band start cell of band b (R104). -/
  | bandStartWrite (b : BandNo) (w : Word)
  /-- Processor write to the weekend cell (R104). -/
  | weekendWrite (w : Word)
  /-- Processor write to the tariff cell of band b and speed class v (R106). -/
  | tariffWrite (b : BandNo) (v : SpeedNo) (w : Word)
  /-- Processor write to the permit cell of class c (R107). -/
  | permitWrite (c : AccountClass) (w : Word)
  /-- Scanner write to the sweep marker cell (R130). -/
  | sweepMarker (w : Word)
  /-- The start of a record posting (R132). -/
  | postingStart
  /-- The completion of a record posting (R133). -/
  | postingCompletion
  /-- The time remaining of the OPEN window reaching 0 (R131). -/
  | windowTimeOut
  /-- Processor write to the journal tail cell (R138). -/
  | tailWrite (w : Word)
  /-- Processor read of the attention cell (R147). -/
  | poll
  /-- Attention command: non-specific done (R148). -/
  | nonSpecificDone
  /-- Attention command: specific done of class k (R148). -/
  | specificDone (k : ClassNo)
  /-- Attention command: rotate-on-non-specific done (R148). -/
  | rotateOnNonSpecificDone
  /-- Attention command: rotate-on-specific done of class k (R148). -/
  | rotateOnSpecificDone (k : ClassNo)
  /-- Attention command: set lowest class k (R148). -/
  | setLowest (k : ClassNo)
  /-- Processor write to the mask cell (R151). -/
  | maskWrite (w : Word)
  /-- Processor write to the mode cell (R152). -/
  | modeWrite (w : Word)
  /-- A master presents a cycle to the part (R159). -/
  | masterCycleArrival (c : Cycle)
  /-- The master cycle that owns the memory side ends (R159). -/
  | masterCycleEnd
  /-- A write by master m to a cell with no take meaning for m (R161). -/
  | writeRefused (m : Master) (o : Offset)
  /-- Processor read of the refused-write latch cell (R162). -/
  | latchRead
  /-- Processor write to the plan start cell (R166). -/
  | planStart (w : Word)
  /-- Processor write to the plan word cell (R167). -/
  | planWord (w : Word)
  /-- PORN asserted (R164). -/
  | powerOnReset
  /-- The rise of PORN with the area straps at this level; the Bools say whether the processor and
  the scanner still present a cycle they presented while PORN was low (R155, R156). -/
  | powerOnResetRelease (straps : BitVec 3) (procPresents scanPresents : Bool)
  /-- The fall of BRSTN (R177). -/
  | busReset
  deriving DecidableEq, Repr

end Sys2Proof
end

