-- ==== Sys2Proof/Decode.lean ====
section
/-!
DEFINITION. The command a word of opcode_table.json's bits spells. No row of the table gives bits
(every row's "fields" is empty and none has "fixed"), so no word spells a command (log 2).
-/

namespace Sys2Proof

/-- The command that a word of `nbits` bits spells by the table: none, since no row gives bits. -/
def decodeTableWord (_nbits _w : Nat) : Option Instr := none

end Sys2Proof
end

