-- ==== Sys2Proof/Machine/Layout.lean ====
section
/-!
DEFINITION. The line-area map (11_formats_and_signals.md, R157's table): where each word and cell
stands, and which region an offset falls in. Positions of fields inside words are in
Machine/Operands.lean.
-/

namespace Sys2Proof.Machine

/-- The regions of the line area, with the line, entry or number an offset names (R157, R172). -/
inductive Region where
  | commandWord (n : LineNo)
  | statusWord (n : LineNo)
  | attention
  | mask
  | mode
  | planStart
  | planWord
  | partStatus
  | head
  | tail
  | latch
  | census
  | commit
  | receiptTarget
  | receiptState
  | receiptCheck
  | clockMinute
  | clockDay
  | sweepMarker
  | credit
  | tariff (b : BandNo) (v : SpeedNo)
  | bandStart (b : BandNo)
  | weekend
  | permit (c : AccountClass)
  | setting (n : LineNo)
  | staging (i : Fin 16)
  | sessionStatus (n : LineNo) (k : Fin 4)
  | receiveRing (n : LineNo) (i : Fin 32)
  | receiveIndex (n : LineNo)
  | transmitRing (n : LineNo)
  | transmitPut (n : LineNo)
  | transmitTake (n : LineNo)
  | journal
  | plain
  deriving DecidableEq, Repr

/-- A number reduced to a line number: the low six bits. -/
def lineOf (i : Nat) : LineNo := ⟨i % 64, Nat.mod_lt _ (by decide)⟩

/-- A number reduced to a band or speed class: the low two bits. -/
def quarter (i : Nat) : Fin 4 := ⟨i % 4, Nat.mod_lt _ (by decide)⟩

/-- The account class of a code 0 to 3 (R174). -/
def classOfCode (i : Nat) : AccountClass :=
  match i % 4 with
  | 0 => .student
  | 1 => .staff
  | 2 => .guest
  | _ => .operator

/-- The code of an account class (R174). -/
def classCode (c : AccountClass) : Nat :=
  match c with
  | .student => 0
  | .staff => 1
  | .guest => 2
  | .operator => 3

/-- The part cells 0C0h to 0D1h, by their distance from 0C0h (R172). -/
def partCell (i : Nat) : Region :=
  match i with
  | 0 => .attention
  | 1 => .mask
  | 2 => .mode
  | 3 => .planStart
  | 4 => .planWord
  | 5 => .partStatus
  | 6 => .head
  | 7 => .tail
  | 8 => .latch
  | 9 => .census
  | 10 => .commit
  | 11 => .receiptTarget
  | 12 => .receiptState
  | 13 => .receiptCheck
  | 14 => .clockMinute
  | 15 => .clockDay
  | 16 => .sweepMarker
  | 17 => .credit
  | _ => .plain

/-- The Meter Unit's table cells 0E0h to 0F8h, by their distance from 0E0h (R104, R106, R107). -/
def tableCell (i : Nat) : Region :=
  if i < 16 then .tariff (quarter (i / 4)) (quarter i)
  else if i < 20 then .bandStart (quarter i)
  else if i = 20 then .weekend
  else if i < 25 then .permit (classOfCode (i - 21))
  else .plain

/-- The region of an offset, by its number (R157's table). -/
def regionOf (o : Nat) : Region :=
  if o < 0x040 then .commandWord (lineOf o)
  else if o < 0x080 then .statusWord (lineOf o)
  else if o < 0x0C0 then .plain
  else if o < 0x0E0 then partCell (o - 0x0C0)
  else if o < 0x100 then tableCell (o - 0x0E0)
  else if o < 0x140 then .setting (lineOf o)
  else if o < 0x200 then .plain
  else if o < 0x210 then .staging ⟨o % 16, Nat.mod_lt _ (by decide)⟩
  else if o < 0x300 then .plain
  else if o < 0x400 then .sessionStatus (lineOf (o / 4)) (quarter o)
  else if o < 0xC00 then .receiveRing (lineOf ((o - 0x400) / 32)) ⟨o % 32, Nat.mod_lt _ (by decide)⟩
  else if o < 0xC40 then .receiveIndex (lineOf o)
  else if o < 0x1000 then .plain
  else if o < 0x2000 then .transmitRing (lineOf (o / 64))
  else if o < 0x2040 then .transmitPut (lineOf o)
  else if o < 0x2080 then .transmitTake (lineOf o)
  else if o < 0x4000 then .plain
  else .journal

/-- The region of a line-area offset. -/
def region (o : Offset) : Region := regionOf o.toNat

/-- Offset of line n's command word: 000h+n. -/
def commandOffset (n : LineNo) : Offset := BitVec.ofNat 15 n.val
/-- Offset of line n's status word: 040h+n. -/
def statusOffset (n : LineNo) : Offset := BitVec.ofNat 15 (0x040 + n.val)
/-- Offset of line n's setting cell: 100h+n. -/
def settingOffset (n : LineNo) : Offset := BitVec.ofNat 15 (0x100 + n.val)
/-- Offset of staging word i: 200h+i. -/
def stagingOffset (i : Fin 16) : Offset := BitVec.ofNat 15 (0x200 + i.val)
/-- Offset of entry i of line n's receive ring: 400h+32n+i. -/
def receiveOffset (n : LineNo) (i : Fin 32) : Offset := BitVec.ofNat 15 (0x400 + 32 * n.val + i.val)
/-- Offset of line n's transmit put cell: 2000h+n. -/
def putOffset (n : LineNo) : Offset := BitVec.ofNat 15 (0x2000 + n.val)
/-- Offset of line n's transmit take cell: 2040h+n. -/
def takeOffset (n : LineNo) : Offset := BitVec.ofNat 15 (0x2040 + n.val)
/-- Offset of the tariff cell of band b and speed class v: 0E0h+4b+v. -/
def tariffOffset (b : BandNo) (v : SpeedNo) : Offset := BitVec.ofNat 15 (0x0E0 + 4 * b.val + v.val)
/-- Offset of the band start cell of band b: 0F0h+b. -/
def bandStartOffset (b : BandNo) : Offset := BitVec.ofNat 15 (0x0F0 + b.val)
/-- Offset of word w, 1 to 16 counted here from 0, of the record at position k: 4000h+16k+w (R124). -/
def journalOffset (k w : Nat) : Offset := BitVec.ofNat 15 (0x4000 + 16 * k + w)

/-- Offset of the attention cell. -/
def attentionOffset : Offset := 0x0C0#15
/-- Offset of the plan word cell. -/
def planWordOffset : Offset := 0x0C4#15
/-- Offset of the journal tail cell. -/
def tailOffset : Offset := 0x0C7#15
/-- Offset of the commit cell. -/
def commitOffset : Offset := 0x0CA#15
/-- Offset of the clock minute cell. -/
def clockMinuteOffset : Offset := 0x0CE#15
/-- Offset of the sweep marker cell. -/
def sweepOffset : Offset := 0x0D0#15

/-- R157's default: a write by this master to this region has no take, watch or pass meaning, so it
is refused whatever the part's state. -/
def refusesWrite (m : Master) (r : Region) : Bool :=
  match r, m with
  | .partStatus, _ | .head, _ | .latch, _ | .receiptTarget, _ | .receiptState, _
  | .receiptCheck, _ | .credit, _ | .sessionStatus _ _, _ | .journal, _ => true
  | .attention, .scanner | .mask, .scanner | .mode, .scanner | .planStart, .scanner
  | .planWord, .scanner | .tail, .scanner | .census, .scanner | .commit, .scanner
  | .clockMinute, .scanner | .clockDay, .scanner | .tariff _ _, .scanner
  | .bandStart _, .scanner | .weekend, .scanner | .permit _, .scanner
  | .setting _, .scanner => true
  | _, _ => false

end Sys2Proof.Machine
end

