-- ==== Sys2Proof/Config.lean ====
section
/-!
DEFINITION. The constants the spec fixes for every part, and the one free value of the model.

The operating values that software chooses are no constants: they are the plan (R165 to R167) and
stand in State.
-/

namespace Sys2Proof.Config

/-- What a word of the memory array reads as when nothing has written it. DESIGN CHOICE (log 3): the
array's contents are outside the part ("whatever values memory holds", R140). -/
def unwrittenWord : Word := 0#16

/-- The clearing time of a line that enters CLEARING, in short ticks: 30 s (R3, R15). -/
def clearingTicks : Nat := 3000

/-- Short ticks per second: the plan's seconds are counted as so many short ticks (R3, R25, R42). -/
def ticksPerSecond : Nat := 100

/-- The time one record posting occupies the memory side, in microseconds (R133). -/
def postingMicros : Nat := 4

/-- The least time remaining at which a record posting may start, in microseconds (R132). -/
def postingReserve : Nat := 6

/-- The greatest value of a saturating 16-bit counter (R108). -/
def maxCount : Nat := 65535

/-- The greatest value of the connect seconds (R108). -/
def maxSeconds : Nat := 4294967295

/-- FREE VALUE (log 4). How many of a record's sixteen words a power-on reset that cuts a posting
short has left in memory: R140 says such a record is "left part written" and gives no number. The
argument counts the uses, so that each use is a fresh value; the use takes it modulo 17. -/
opaque tornWords : Nat → Nat

end Sys2Proof.Config
end

