-- ==== Sys2Proof/Machine/State.lean ====
section
/-!
DEFINITION. The state of the Orjem 6408, block by block, and the state after power-on reset.

Every field is plain data. A counter that the spec bounds is a Nat, and the operation that raises it
saturates or wraps it as its rule says; sets are bit vectors in the order of their cell's layout.
-/

namespace Sys2Proof.Machine

/-! ## The Line Monitor (R1) -/

/-- Who handles a line (R2). -/
inductive LineMode where
  | off
  | watched
  | passive
  deriving DecidableEq, Repr

/-- The ten line states (R1). -/
inductive LineState where
  | off
  | passive
  | idle
  | ringing
  | answering
  | name
  | password
  | checking
  | signedOn
  | clearing
  deriving DecidableEq, Repr

/-- The two forced commands (R10). -/
inductive CommandKind where
  | answer
  | hangUp
  deriving DecidableEq, Repr

/-- The two manners of a forced command (R10). -/
inductive Manner where
  | rude
  | polite
  deriving DecidableEq, Repr

/-- A forced command record (R1, R10). -/
structure Forced where
  kind : CommandKind
  manner : Manner
  /-- Short ticks of polite time remaining while it runs; absent once it has expired, stopped at a
  delivery or been removed (R3, R11). -/
  politeLeft : Option Nat
  /-- Awaiting acknowledge: clear, or the kind delivered. -/
  awaiting : Option CommandKind
  deriving DecidableEq, Repr

/-- A clearing record (R1, R15). -/
structure Clearing where
  ackSeen : Bool
  timeLeft : Nat
  modeAfter : LineMode
  deriving DecidableEq, Repr

/-- A line record (R1). A timer that holds `some 0` has run out and its expiry is due (R3, log 5). -/
structure LineRecord where
  mode : LineMode
  state : LineState
  lastCarrier : Bool
  lastRing : Bool
  speed : SpeedNo
  doubt : Option Nat
  ringGone : Option Nat
  answer : Option Nat
  forced : Option Forced
  txPut : BitVec 6
  txTake : BitVec 6
  activity : Bool
  /-- Idle minutes, 0 to 120. -/
  idle : Nat
  /-- Sticky marks: PARITY, FRAMING, OVERRUN, GLITCH, NO_ACK in bits 0 to 4. -/
  sticky : BitVec 5
  /-- Missed calls, 0 to 15. -/
  missed : Nat
  context : Option CtxNo
  recordPending : Bool
  clearing : Option Clearing
  deriving DecidableEq, Repr

/-- A line record after power-on reset (R23). -/
def LineRecord.reset : LineRecord :=
  { mode := .off, state := .off, lastCarrier := false, lastRing := false, speed := 0,
    doubt := none, ringGone := none, answer := none, forced := none, txPut := 0, txTake := 0,
    activity := false, idle := 0, sticky := 0, missed := 0, context := none,
    recordPending := false, clearing := none }

/-! ## The sign-on contexts (R28, R40) -/

/-- A context's lookup state (R52). -/
inductive LookupState where
  | none
  | queued
  | inService
  deriving DecidableEq, Repr

/-- A sign-on context. `holder` is absent while it is FREE; the other fields then keep what they held
and have no effect (R40). -/
structure Context where
  holder : Option LineNo
  name : List Byte
  nameLong : Bool
  password : List Byte
  passwordLong : Bool
  /-- Attempt count, 0 to 2. -/
  attempts : Nat
  /-- Noise count, 0 to 8. -/
  noise : Nat
  /-- Sign-on time remaining in short ticks; `some 0` is an expiry due. -/
  signOnTime : Option Nat
  lookup : LookupState
  deriving DecidableEq, Repr

/-- A context with its fields at their starting values and the given holder (R31, R40). -/
def Context.fresh (holder : Option LineNo) : Context :=
  { holder := holder, name := [], nameLong := false, password := [], passwordLong := false,
    attempts := 0, noise := 0, signOnTime := none, lookup := .none }

/-! ## The Account Directory (R65, R69, R80, R85) -/

/-- A slot's lock (R75). -/
inductive Lock where
  | none
  | timed (minutes : Nat)
  | held
  deriving DecidableEq, Repr

/-- An account entry (R65). -/
structure Account where
  name : List Byte
  number : Word
  cls : AccountClass
  check : Word
  budget : Nat
  basis : Nat
  units : Nat
  alarm : Bool
  maxSessions : Nat
  openSessions : Nat
  /-- Failure count, 0 to 15. -/
  failures : Nat
  lock : Lock
  deriving DecidableEq, Repr

/-- A staging record as captured: the words, the fill set and the end offset (R85). -/
structure Staged where
  words : Vector Word 16
  fill : Vector Bool 16
  /-- End offset, 0 to 15. -/
  last : Fin 16
  deriving DecidableEq, Repr

/-- An empty staging record (R86, R99). -/
def Staged.empty : Staged :=
  { words := Vector.replicate 16 0#16, fill := Vector.replicate 16 false, last := 0 }

/-- A request to the directory (R69). -/
inductive Request where
  | lookup (name : List Byte) (check : Word) (passwordLong : Bool) (k : CtxNo) (n : LineNo)
  | commit (record : Staged)
  deriving DecidableEq, Repr

/-- The staging buffer's state (R85). -/
inductive StagingState where
  | fresh
  | filling
  | pending
  deriving DecidableEq, Repr

/-- The last outcome of the staging buffer, in the order of the receipt codes (R85, R172). -/
inductive CommitOutcome where
  | none
  | pending
  | done
  | mismatch
  | gaps
  | nameTaken
  | slotBusy
  | slotEmpty
  | badField
  deriving DecidableEq, Repr

/-- The staging buffer (R85). `resetInService` is set by a bus reset that finds a commit in service: it
decides what that commit's completion does to the buffer (R99). -/
structure Staging where
  state : StagingState
  record : Staged
  outcome : CommitOutcome
  resetInService : Bool
  deriving DecidableEq, Repr

/-- The staging buffer after power-on reset (R99). -/
def Staging.reset : Staging :=
  { state := .fresh, record := Staged.empty, outcome := .none, resetInService := false }

/-- The census conditions, in the order of their codes (R80, R172). -/
inductive CensusCondition where
  | alarm
  | locked
  | active
  | any
  deriving DecidableEq, Repr

/-- The census (R80). -/
structure Census where
  active : Bool
  condition : CensusCondition
  /-- Cursor, 0 to 2048. -/
  cursor : Nat
  deriving DecidableEq, Repr

/-- The Account Directory: 2048 slots, each EMPTY (`none`) or holding an account. -/
structure Directory where
  slots : Vector (Option Account) 2048
  queue : List Request
  inService : Option Request
  staging : Staging
  census : Census
  deriving DecidableEq, Repr

/-- The directory after power-on reset (R84, R99). The condition of an INACTIVE census has no effect;
its reset value is a choice (log 6). -/
def Directory.reset : Directory :=
  { slots := Vector.replicate 2048 none, queue := [], inService := none,
    staging := Staging.reset, census := { active := false, condition := .alarm, cursor := 0 } }

/-! ## The Meter Unit (R100 to R108) -/

/-- A grace: a set of reasons, not empty, and the seconds left (R108, R113). -/
structure Grace where
  noBudget : Bool
  bandBarred : Bool
  left : Nat
  deriving DecidableEq, Repr

/-- A session record (R108). -/
structure Session where
  slot : SlotNo
  openDay : Word
  openMinute : Nat
  seconds : Nat
  units : Vector Nat 4
  overrun : Nat
  charge : Nat
  grace : Option Grace
  budgetWarned : Bool
  idleWarned : Bool
  /-- Fault summary: PARITY, FRAMING, OVERRUN, GLITCH in bits 0 to 3. -/
  faults : BitVec 4
  deriving DecidableEq, Repr

/-- A class permit cell: the bands in which an account may sign on and the bands in which a session
may continue (R107). -/
structure Permit where
  signOn : BitVec 4
  hold : BitVec 4
  deriving DecidableEq, Repr

/-- The Meter Unit. `secondsDue` and `minutesDue` count the second and minute ticks that the timebase
has given and the part has not yet taken (R100, log 5). -/
structure Meter where
  divisor : Option Nat
  /-- Short ticks within the second, 0 to 99. -/
  shortTicks : Nat
  /-- Second ticks within the minute, 0 to 59. -/
  secondTicks : Nat
  secondsDue : Nat
  minutesDue : Nat
  /-- Minute of day, 0 to 1439. -/
  minute : Nat
  /-- Weekday, 0 to 6. -/
  weekday : Nat
  day : Word
  /-- The sixteen tariff cells, cell 4b+s for band b and speed class s. -/
  tariffs : Vector Nat 16
  bandStarts : Vector Nat 4
  weekend : BitVec 7
  /-- The permit cells of STUDENT, STAFF, GUEST and OPERATOR. -/
  permits : Vector Permit 4
  band : BandNo
  sessions : Vector (Option Session) 64
  deriving DecidableEq, Repr

/-- The Meter Unit after power-on reset (R121). -/
def Meter.reset : Meter :=
  { divisor := none, shortTicks := 0, secondTicks := 0, secondsDue := 0, minutesDue := 0,
    minute := 0, weekday := 0, day := 0, tariffs := Vector.replicate 16 0,
    bandStarts := Vector.replicate 4 0, weekend := 0,
    permits := Vector.replicate 4 { signOn := 0xF#4, hold := 0xF#4 },
    band := 3, sessions := Vector.replicate 64 none }

/-! ## The Journal Poster (R122, R126, R130) -/

/-- A built record waiting to be posted: its line and its sixteen words, word 1 first (R124, R126). -/
structure JournalRecord where
  line : LineNo
  words : Vector Word 16
  deriving DecidableEq, Repr

/-- An OPEN posting window (R130). -/
structure Window where
  /-- Time remaining in microseconds. -/
  left : Nat
  eligible : Nat
  /-- A scanner cycle has arrived during the posting in progress: the window closes at its completion
  (R134, log 13). -/
  ending : Bool
  deriving DecidableEq, Repr

/-- The Journal Poster. The window is CLOSED while absent. -/
structure Journal where
  capacity : Nat
  head : Nat
  tail : Nat
  visible : Nat
  sequence : Word
  lowMark : Nat
  queue : List JournalRecord
  window : Option Window
  deriving DecidableEq, Repr

/-- The Journal Poster after power-on reset (R140). -/
def Journal.reset : Journal :=
  { capacity := 0, head := 0, tail := 0, visible := 0, sequence := 0, lowMark := 0,
    queue := [], window := none }

/-! ## The Attention Controller (R141, R142) -/

/-- The close reasons, in the order of their codes (R117, R141). -/
inductive CloseReason where
  | logoff
  | carrierLost
  | idle
  | noBudget
  | bandBarred
  | forced
  | lineOff
  deriving DecidableEq, Repr

/-- The REJECTED reasons, in the order of their codes (R141). -/
inductive RejectReason where
  | noSuchName
  | badPassword
  | accountLocked
  | sessionLimit
  | noBudget
  | classBarred
  | nameTooLong
  | attempts
  | signOnTimeout
  | noCarrier
  | carrierLost
  | noisy
  | forced
  | processorClear
  | unsolicited
  | lineOff
  deriving DecidableEq, Repr

/-- The WARNING details, in the order of their codes (R141). -/
inductive WarningKind where
  | budgetLow
  | budgetGone
  | idle
  | bandBarred
  deriving DecidableEq, Repr

/-- The ADMIN(PLAN) details, in the order of their codes (R141). -/
inductive PlanOutcome where
  | done
  | broken
  | refused
  deriving DecidableEq, Repr

/-- An attention entry, by its class, with its subject and detail (R141). -/
inductive Notice where
  | closed (n : LineNo) (reason : CloseReason)
  | signed (n : LineNo) (speed : SpeedNo)
  | rejected (n : LineNo) (reason : RejectReason)
  | promptPassword (n : LineNo)
  | promptConnect (n : LineNo)
  | promptRestart (n : LineNo)
  | warning (n : LineNo) (kind : WarningKind)
  | journalRecords
  | journalCreditLow
  | adminCommit (outcome : CommitOutcome)
  | adminRefused
  | adminPlan (outcome : PlanOutcome)
  deriving DecidableEq, Repr

/-- The Attention Controller (R142, R144, R151, R152). -/
structure Attention where
  queues : Vector (List Notice) 8
  inService : Vector (Option Notice) 8
  mask : BitVec 8
  lowest : ClassNo
  autoDone : Bool
  autoRotate : Bool
  specialMask : Bool
  deriving DecidableEq, Repr

/-- The Attention Controller's reset values (R154). -/
def Attention.reset : Attention :=
  { queues := Vector.replicate 8 [], inService := Vector.replicate 8 none, mask := 0,
    lowest := 7, autoDone := false, autoRotate := false, specialMask := false }

/-! ## The Bus Passage Unit (R155 to R161) -/

/-- What the part does with a cycle (R157); Hold is the wait before the taking. -/
inductive Action where
  | pass
  | watch
  | alter
  | overlay
  | take
  | refuse
  deriving DecidableEq, Repr

/-- The owner of the memory side (R159). A cycle in progress carries the action it was given at its
taking and the word it returns if it is a read. -/
inductive Owner where
  | free
  | cycle (c : Cycle) (action : Action) (data : Word)
  | posting
  deriving DecidableEq, Repr

/-- The refused-write latch (R161). -/
structure Latch where
  valid : Bool
  offset : Offset
  master : Master
  more : Bool
  deriving DecidableEq, Repr

/-- The latch while clear (R162, R164). -/
def Latch.clear : Latch := { valid := false, offset := 0, master := .processor, more := false }

/-- The Bus Passage Unit: the strap value sampled (the area base is it times 32768), the latch, the
owner of the memory side and the waiting list, oldest first. -/
structure BusUnit where
  strap : BitVec 3
  latch : Latch
  owner : Owner
  /-- The cycle that owns the memory side was taken before a bus reset: the part completes it, and its
  master, restarted, makes cycles anew (R164, log 14). -/
  restarted : Bool
  waiting : List Cycle
  deriving DecidableEq, Repr

/-- The Bus Passage Unit after power-on reset (R164). The level of the straps is the board's; 0 is a
choice (log 7). -/
def BusUnit.reset : BusUnit :=
  { strap := 0, latch := Latch.clear, owner := .free, restarted := false, waiting := [] }

/-- The pins that hold a level between events (R176, R177). -/
structure Pins where
  /-- PORN high: the part is out of power-on reset. -/
  porn : Bool
  /-- ATTN. -/
  attn : Bool
  /-- BRDY as it answers the processor's cycle: low from the presenting of the cycle, raised at its end
  (R177; one level for each master, log 21). -/
  brdyProcessor : Bool
  /-- BRDY as it answers the scanner's cycle. -/
  brdyScanner : Bool
  /-- BD0 to BD15: the word the part last returned to a read. -/
  bd : Word
  /-- Cycles presented on BREQ while PORN is low (R156). -/
  presented : List Cycle
  deriving DecidableEq, Repr

/-- The pins right after the release of power-on reset (R164, R177; BD is a choice, log 7). -/
def Pins.reset : Pins :=
  { porn := true, attn := false, brdyProcessor := false, brdyScanner := false, bd := 0,
    presented := [] }

/-! ## The plan (R165 to R167, R173) -/

/-- The plan state (R165). -/
inductive PlanState where
  | unplanned
  | planning (next : Nat)
  | planned
  deriving DecidableEq, Repr

/-- The plan state and the values of plan words 4 to 11. The divisor of word 2 stands in the Meter Unit
and the capacity and low mark of word 3 in the Journal Poster (R165). -/
structure Plan where
  state : PlanState
  windowLength : Nat
  carrierHold : Nat
  answerTime : Nat
  ringGoneTime : Nat
  signOnLimit : Nat
  lockThreshold : Nat
  lockTime : Nat
  idleWarn : Nat
  idleLimit : Nat
  politeLimit : Nat
  graceSeconds : Nat
  warnThreshold : Nat
  deriving DecidableEq, Repr

/-- The plan after power-on reset (R165): UNPLANNED and the warning threshold 0. Words 4 to 10 are unset
and nothing reads them before a first PLANNED; the value 0 held for them is a choice (log 8). -/
def Plan.reset : Plan :=
  { state := .unplanned, windowLength := 0, carrierHold := 0, answerTime := 0, ringGoneTime := 0,
    signOnLimit := 0, lockThreshold := 0, lockTime := 0, idleWarn := 0, idleLimit := 0,
    politeLimit := 0, graceSeconds := 0, warnThreshold := 0 }

/-! ## The whole part -/

/-- The memory array as a sparse list of words: see Machine/Ops.lean for its canonical form. -/
abbrev Memory := List (Nat × Word)

/-- The state of the part, the memory array behind it, the queue of waiting commands, and the count of
uses of the free value (the model's own field, log 4). -/
structure State where
  lines : Vector LineRecord 64
  answerQueue : List LineNo
  contexts : Vector Context 8
  /-- The fill character (R41). -/
  fill : Byte
  directory : Directory
  meter : Meter
  journal : Journal
  attention : Attention
  bus : BusUnit
  plan : Plan
  pins : Pins
  mem : Memory
  freeUses : Nat
  pending : List Instr
  deriving DecidableEq, Repr

/-- The part right after power-on reset, released with the straps at 0 and nothing commanded. -/
def State.reset : State :=
  { lines := Vector.replicate 64 LineRecord.reset, answerQueue := [],
    contexts := Vector.replicate 8 (Context.fresh none), fill := 0x20#8,
    directory := Directory.reset, meter := Meter.reset, journal := Journal.reset,
    attention := Attention.reset, bus := BusUnit.reset, plan := Plan.reset, pins := Pins.reset,
    mem := [], freeUses := 0, pending := [] }

/-- The faults. The spec describes no event that stops the part ("The part does not end a bus cycle in
error, does not retry one and does not abort one", 09_cycles_through_the_part.md), so no command
raises one. -/
inductive Fault where
  /-- Raised by no command: it only gives the type a name for the outcome `fault`. Safe. -/
  | stopped
  deriving DecidableEq, Repr

/-- The refusals. -/
inductive Refusal where
  /-- A command with no meaning yet, by its mnemonic, raised by its arm of exec only. Safe: nothing is
  claimed of it. -/
  | notModelled (mnemonic : String)
  deriving DecidableEq, Repr

end Sys2Proof.Machine
end

