-- ==== Sys2Proof/Machine/Operands.lean ====
section
/-!
DEFINITION. The fields of the words that software and the scanner write (11_formats_and_signals.md):
every operand form of the commands, each read in one place.
-/

namespace Sys2Proof.Machine

/-- The unsigned value of the field of `len` bits whose least significant bit is bit `lo`. -/
def field (w : Word) (lo len : Nat) : Nat := (w.extractLsb' lo len).toNat

/-! ## Line words (R170) -/

/-- Command code ANSWER. -/
def answerCode : Word := 0x0001#16

/-- Command code HANG_UP. -/
def hangUpCode : Word := 0x0002#16

/-- The command code of a forced command's kind; the manner is not sent (R11). -/
def commandCode (k : CommandKind) : Word :=
  match k with
  | .answer => answerCode
  | .hangUp => hangUpCode

/-- Status word: carrier present. -/
def statusCarrier (w : Word) : Bool := w.getLsbD 0

/-- Status word: ring present. -/
def statusRing (w : Word) : Bool := w.getLsbD 1

/-- The speed class of a status word's speed code: codes 0, 1 and 2 give their class, 3 to 7 give
class 3 (R4). -/
def statusSpeed (w : Word) : SpeedNo :=
  match field w 4 3 with
  | 0 => 0
  | 1 => 1
  | 2 => 2
  | _ => 3

/-- Receive entry: the whole character. -/
def entryChar (w : Word) : Byte := w.extractLsb' 0 8

/-- Receive entry: the low seven bits of the character, as a byte (R43). -/
def entryChar7 (w : Word) : Byte := (w.extractLsb' 0 7).setWidth 8

/-- Receive entry: the marks PARITY, FRAMING and OVERRUN in bits 0 to 2. -/
def entryMarks (w : Word) : BitVec 3 := w.extractLsb' 8 3

/-- A BREAK: FRAMING marked and character 00h (R9). -/
def entryIsBreak (w : Word) : Bool := w.getLsbD 9 && entryChar w == 0x00#8

/-- A character is printable when its low seven bits lie in 21h to 7Eh (R43). -/
def printable (c : Byte) : Bool := 0x21#8 ≤ c && c ≤ 0x7E#8

/-- A letter a to z as the matching A to Z, anything else unchanged (R44). -/
def foldCase (c : Byte) : Byte := if 0x61#8 ≤ c && c ≤ 0x7A#8 then c - 0x20#8 else c

/-- A receive entry with its character replaced by the fill character and every other bit as written
(R46, R169). -/
def maskedEntry (fill : Byte) (w : Word) : Word := (w.extractLsb' 8 8) ++ fill

/-- R46's test: the write of this entry for a line in PASSWORD is altered. -/
def mustMask (w : Word) : Bool := printable (entryChar7 w) || entryMarks w != 0#3

/-- Line setting word: the mode of a code, absent for the unassigned fourth code. -/
def settingMode (w : Word) : Option LineMode :=
  match field w 0 2 with
  | 0 => some .off
  | 1 => some .watched
  | 2 => some .passive
  | _ => none

/-- Line setting word: the mode load flag. -/
def settingLoad (w : Word) : Bool := w.getLsbD 2

/-- A HANG request: none, a manner, or the unassigned fourth code (R18). -/
inductive HangField where
  | none
  | request (manner : Manner)
  | unassigned
  deriving DecidableEq, Repr

/-- Line setting word: the HANG field. -/
def settingHang (w : Word) : HangField :=
  match field w 4 2 with
  | 0 => .none
  | 1 => .request .polite
  | 2 => .request .rude
  | _ => .unassigned

/-- R18: the Line Monitor refuses a setting write whose load flag is set with the fourth mode code, or
whose HANG request is the fourth code. -/
def settingRefused (w : Word) : Bool :=
  (settingLoad w && settingMode w == none) || settingHang w == .unassigned

/-- Transmit put and take cells: the low six bits (R14). -/
def txIndex (w : Word) : BitVec 6 := w.extractLsb' 0 6

/-! ## Part cells (R171, R172) -/

/-- Attention command word: the class k. -/
def commandClass (w : Word) : ClassNo := ⟨field w 0 3 % 8, Nat.mod_lt _ (by decide)⟩

/-- Attention command word: the command code. -/
def attentionCode (w : Word) : Nat := field w 8 3

/-- Plan start word: the fill character, with 20h in place of a printable code (R41). -/
def planFill (w : Word) : Byte :=
  if printable ((w.extractLsb' 0 7).setWidth 8) then 0x20#8 else w.extractLsb' 0 8

/-- Journal tail word: the new index. -/
def tailIndex (w : Word) : Nat := field w 0 10

/-- Census start word: the condition; all four codes are assigned (R81). -/
def censusCondition (w : Word) : CensusCondition :=
  match field w 0 2 with
  | 0 => .alarm
  | 1 => .locked
  | 2 => .active
  | _ => .any

/-- A slot number from a word's bits 0 to 10. -/
def slotField (w : Word) : SlotNo := ⟨field w 0 11 % 2048, Nat.mod_lt _ (by decide)⟩

/-- Commit word: the end offset. -/
def commitEnd (w : Word) : Fin 16 := ⟨field w 12 4 % 16, Nat.mod_lt _ (by decide)⟩

/-- Clock minute word: the minute of day. -/
def clockMinuteField (w : Word) : Nat := field w 0 11

/-- Clock minute word: the weekday. -/
def clockWeekdayField (w : Word) : Nat := field w 12 3

/-- Permit word: both sets. -/
def permitField (w : Word) : Permit := { signOn := w.extractLsb' 0 4, hold := w.extractLsb' 4 4 }

/-! ## The staging record (R174) -/

/-- The captured word at an offset, counted as 0 outside the fill set (R85). -/
def Staged.word (r : Staged) (i : Fin 16) : Word := if r.fill[i] then r.words[i] else 0#16

/-- The fill set is not empty (R85). -/
def Staged.anyFilled (r : Staged) : Bool := r.fill.toList.any id

/-- Every offset from 0 to the end offset is in a non-empty fill set (R85). -/
def Staged.gapless (r : Staged) : Bool :=
  r.anyFilled && (r.fill.toList.take (r.last.val + 1)).all id

/-- The staging operations (R174). -/
inductive StagingOp where
  | load
  | alter
  | erase
  deriving DecidableEq, Repr

/-- Word 0: the operation, absent for the unassigned fourth code. -/
def Staged.op (r : Staged) : Option StagingOp :=
  match field (r.word 0) 12 2 with
  | 0 => some .load
  | 1 => some .alter
  | 2 => some .erase
  | _ => none

/-- Word 0: the target slot. -/
def Staged.target (r : Staged) : SlotNo := slotField (r.word 0)

/-- Word 1: the load flags NAME, CHECK, CLASS, BUDGET, MAXSESS, ACCOUNT, UNLOCK, LOCK (bits 0 to 7). -/
def Staged.flag (r : Staged) (b : Nat) : Bool := (r.word 1).getLsbD b

/-- Load flag NAME. -/
def Staged.flagName (r : Staged) : Bool := r.flag 0
/-- Load flag CHECK. -/
def Staged.flagCheck (r : Staged) : Bool := r.flag 1
/-- Load flag CLASS. -/
def Staged.flagClass (r : Staged) : Bool := r.flag 2
/-- Load flag BUDGET. -/
def Staged.flagBudget (r : Staged) : Bool := r.flag 3
/-- Load flag MAXSESS. -/
def Staged.flagMaxSess (r : Staged) : Bool := r.flag 4
/-- Load flag ACCOUNT. -/
def Staged.flagAccount (r : Staged) : Bool := r.flag 5
/-- Load flag UNLOCK. -/
def Staged.flagUnlock (r : Staged) : Bool := r.flag 6
/-- Load flag LOCK. -/
def Staged.flagLock (r : Staged) : Bool := r.flag 7

/-- The two bytes of a word, low byte first (R68, R174). -/
def wordBytes (w : Word) : List Byte := [w.extractLsb' 0 8, w.extractLsb' 8 8]

/-- Words 2 to 7: the twelve name bytes, in name order. -/
def Staged.nameBytes (r : Staged) : List Byte :=
  ([2, 3, 4, 5, 6, 7] : List (Fin 16)).flatMap fun i => wordBytes (r.word i)

/-- The name: the bytes before the first 00h byte, or all twelve (R91). -/
def Staged.name (r : Staged) : List Byte := r.nameBytes.takeWhile (· != 0x00#8)

/-- A character the directory allows in a name: A to Z, 0 to 9, '-' and '.' (R65, R91). -/
def nameChar (c : Byte) : Bool :=
  (0x41#8 ≤ c && c ≤ 0x5A#8) || (0x30#8 ≤ c && c ≤ 0x39#8) || c == 0x2D#8 || c == 0x2E#8

/-- R91's name test: not empty, every character allowed, and no non-zero byte after a 00h byte. -/
def Staged.nameOk (r : Staged) : Bool :=
  !r.name.isEmpty && r.name.all nameChar && (r.nameBytes.drop r.name.length).all (· == 0x00#8)

/-- Word 8: the check word. -/
def Staged.check (r : Staged) : Word := r.word 8

/-- Word 9: the class, absent for an unassigned code 4 to 7 (R174). -/
def Staged.cls (r : Staged) : Option AccountClass :=
  if field (r.word 9) 0 3 < 4 then some (classOfCode (field (r.word 9) 0 3)) else none

/-- Word 9: max sessions. -/
def Staged.maxSessions (r : Staged) : Nat := field (r.word 9) 8 3

/-- R91's max sessions test. -/
def Staged.maxSessionsOk (r : Staged) : Bool := 1 ≤ r.maxSessions && r.maxSessions ≤ 4

/-- Word 10: the budget. -/
def Staged.budget (r : Staged) : Nat := (r.word 10).toNat

/-- Word 11: the account number. -/
def Staged.number (r : Staged) : Word := r.word 11

end Sys2Proof.Machine
end

