-- ==== Sys2Proof/Machine/Ops.lean ====
section
/-!
DEFINITION. The shared operations: the memory array, the register files, the check word, the
Attention Controller's intake, the refused-write latch, the forced command slot and entry to
CLEARING. The families' files build the commands from these.
-/

namespace Sys2Proof.Machine

/-! ## The memory array -/

/-- The word at an address: the listed one, or what an unlisted address reads as (log 3). -/
def Memory.read : Memory → Nat → Word
  | [], _ => Config.unwrittenWord
  | (k, v) :: m, a => if k = a then v else Memory.read m a

/-- Writes a word, keeping the addresses rising and no entry equal to what an unlisted address reads
as. -/
def Memory.write : Memory → Nat → Word → Memory
  | [], a, v => if v = Config.unwrittenWord then [] else [(a, v)]
  | (k, w) :: m, a, v =>
    if a < k then
      if v = Config.unwrittenWord then (k, w) :: m else (a, v) :: (k, w) :: m
    else if a = k then
      if v = Config.unwrittenWord then m else (a, v) :: m
    else (k, w) :: Memory.write m a v

/-- The canonical form: addresses strictly rising and below 2^18, and no entry equal to what an
unlisted address reads as. -/
def Memory.wf : Memory → Bool
  | [] => true
  | (k, v) :: m =>
    m.all (fun c => k < c.1) && v != Config.unwrittenWord && decide (k < 2 ^ 18) && Memory.wf m

/-- The memory address of a line-area offset: the area base, the strap value times 32768, plus the
offset (R155). -/
def State.areaAddr (s : State) (o : Offset) : Addr := s.bus.strap ++ o

/-- The line-area offset of an address, absent when it lies outside the line area (R155). -/
def State.areaOffset (s : State) (a : Addr) : Option Offset :=
  if a.extractLsb' 15 3 = s.bus.strap then some (a.extractLsb' 0 15) else none

/-- The word of the memory array at an address. -/
def State.readMem (s : State) (a : Addr) : Word := Memory.read s.mem a.toNat

/-- Writes a word of the memory array. -/
def State.writeMem (s : State) (a : Addr) (v : Word) : State :=
  { s with mem := Memory.write s.mem a.toNat v }

/-- The word of memory at a line-area offset. -/
def State.readArea (s : State) (o : Offset) : Word := s.readMem (s.areaAddr o)

/-- Writes the word of memory at a line-area offset. -/
def State.writeArea (s : State) (o : Offset) (v : Word) : State := s.writeMem (s.areaAddr o) v

/-- Puts a read's word on BD (R177). -/
def State.setBd (s : State) (v : Word) : State := { s with pins := { s.pins with bd := v } }

/-- BRDY as it answers a master's cycle (R177, log 21). -/
def Pins.brdy (p : Pins) (m : Master) : Bool :=
  match m with
  | .processor => p.brdyProcessor
  | .scanner => p.brdyScanner

/-- BRDY set to a level for a master's cycle. -/
def Pins.setBrdy (p : Pins) (m : Master) (level : Bool) : Pins :=
  match m with
  | .processor => { p with brdyProcessor := level }
  | .scanner => { p with brdyScanner := level }

/-- BRDY set to a level for a master's cycle. -/
def State.setBrdy (s : State) (m : Master) (level : Bool) : State :=
  { s with pins := s.pins.setBrdy m level }

/-! ## The register files -/

/-- Line n's record. -/
def State.line (s : State) (n : LineNo) : LineRecord := s.lines[n]

/-- Replaces line n's record. -/
def State.setLine (s : State) (n : LineNo) (r : LineRecord) : State :=
  { s with lines := s.lines.set n r }

/-- Changes line n's record. -/
def State.updLine (s : State) (n : LineNo) (f : LineRecord → LineRecord) : State :=
  s.setLine n (f (s.line n))

/-- Context k. -/
def State.ctx (s : State) (k : CtxNo) : Context := s.contexts[k]

/-- Replaces context k. -/
def State.setCtx (s : State) (k : CtxNo) (c : Context) : State :=
  { s with contexts := s.contexts.set k c }

/-- Changes context k. -/
def State.updCtx (s : State) (k : CtxNo) (f : Context → Context) : State :=
  s.setCtx k (f (s.ctx k))

/-- Slot i of the directory: absent while EMPTY. -/
def State.slot (s : State) (i : SlotNo) : Option Account := s.directory.slots[i]

/-- Replaces slot i. -/
def State.setSlot (s : State) (i : SlotNo) (a : Option Account) : State :=
  { s with directory := { s.directory with slots := s.directory.slots.set i a } }

/-- Changes the account of slot i; an EMPTY slot stays EMPTY. -/
def State.updSlot (s : State) (i : SlotNo) (f : Account → Account) : State :=
  s.setSlot i ((s.slot i).map f)

/-- Line n's session record. -/
def State.session (s : State) (n : LineNo) : Option Session := s.meter.sessions[n]

/-- Replaces line n's session record. -/
def State.setSession (s : State) (n : LineNo) (x : Option Session) : State :=
  { s with meter := { s.meter with sessions := s.meter.sessions.set n x } }

/-- Changes line n's session record; a line without one stays without. -/
def State.updSession (s : State) (n : LineNo) (f : Session → Session) : State :=
  s.setSession n ((s.session n).map f)

/-- Applies `f` to every line that has a session, in order of line number, each found as the lines
before it have left the state (R110). -/
def State.forSessions (s : State) (f : LineNo → Session → State → State) : State :=
  (List.finRange 64).foldl
    (fun s n => match s.session n with | some x => f n x s | none => s) s

/-- The first slot, counting from `i`, whose number and content meet `p`. -/
def searchSlots (p : Nat → Option Account → Bool) : Nat → List (Option Account) → Option Nat
  | _, [] => none
  | i, a :: rest => if p i a then some i else searchSlots p (i + 1) rest

/-- The lowest slot that meets `p`. -/
def State.findSlot (s : State) (p : Nat → Option Account → Bool) : Option SlotNo :=
  match searchSlots p 0 s.directory.slots.toList with
  | some i => if h : i < 2048 then some ⟨i, h⟩ else none
  | none => none

/-! ## The check word (R67, R68) -/

/-- One bit fed to the check register (R67 step 3). -/
def checkBit (r : Word) (b : Bool) : Word :=
  if r.getLsbD 0 != b then (r >>> 1) ^^^ 0x8408#16 else r >>> 1

/-- One byte fed to the check register, least significant bit first (R67 step 2). -/
def checkByte (r : Word) (c : Byte) : Word :=
  (List.range 8).foldl (fun r i => checkBit r (c.getLsbD i)) r

/-- The check word of a list of bytes (R67). -/
def checkWord (bytes : List Byte) : Word := ~~~ (bytes.foldl checkByte 0xFFFF#16)

/-- The check word of a list of words, each fed low byte first (R68). -/
def checkWords (ws : List Word) : Word := checkWord (ws.flatMap wordBytes)

/-! ## The Attention Controller's intake (R141 to R143, R171) -/

/-- The class of an entry (R141). -/
def Notice.cls (e : Notice) : ClassNo :=
  match e with
  | .closed _ _ => 0
  | .signed _ _ => 1
  | .rejected _ _ => 2
  | .promptPassword _ => 3
  | .promptConnect _ | .promptRestart _ => 4
  | .warning _ _ => 5
  | .journalRecords | .journalCreditLow => 6
  | .adminCommit _ | .adminRefused | .adminPlan _ => 7

/-- The subject code of an entry (R171). -/
def Notice.subject (e : Notice) : BitVec 6 :=
  match e with
  | .closed n _ | .signed n _ | .rejected n _ | .promptPassword n | .promptConnect n
  | .promptRestart n | .warning n _ => BitVec.ofFin n
  | .journalRecords => 0
  | .journalCreditLow => 1
  | .adminCommit _ => 0
  | .adminRefused => 1
  | .adminPlan _ => 2

/-- The code of a commit outcome (R172). -/
def CommitOutcome.code (o : CommitOutcome) : Nat :=
  match o with
  | .none => 0
  | .pending => 1
  | .done => 2
  | .mismatch => 3
  | .gaps => 4
  | .nameTaken => 5
  | .slotBusy => 6
  | .slotEmpty => 7
  | .badField => 8

/-- The code of a close reason (R171). -/
def CloseReason.code (r : CloseReason) : Nat :=
  match r with
  | .logoff => 0
  | .carrierLost => 1
  | .idle => 2
  | .noBudget => 3
  | .bandBarred => 4
  | .forced => 5
  | .lineOff => 6

/-- The code of a REJECTED reason (R171). -/
def RejectReason.code (r : RejectReason) : Nat :=
  match r with
  | .noSuchName => 0
  | .badPassword => 1
  | .accountLocked => 2
  | .sessionLimit => 3
  | .noBudget => 4
  | .classBarred => 5
  | .nameTooLong => 6
  | .attempts => 7
  | .signOnTimeout => 8
  | .noCarrier => 9
  | .carrierLost => 10
  | .noisy => 11
  | .forced => 12
  | .processorClear => 13
  | .unsolicited => 14
  | .lineOff => 15

/-- The code of a WARNING detail (R171). -/
def WarningKind.code (k : WarningKind) : Nat :=
  match k with
  | .budgetLow => 0
  | .budgetGone => 1
  | .idle => 2
  | .bandBarred => 3

/-- The code of an ADMIN(PLAN) detail (R171). -/
def PlanOutcome.code (o : PlanOutcome) : Nat :=
  match o with
  | .done => 0
  | .broken => 1
  | .refused => 2

/-- The detail code of an entry (R171). -/
def Notice.detail (e : Notice) : Nat :=
  match e with
  | .closed _ r => r.code
  | .signed _ v => v.val
  | .rejected _ r => r.code
  | .promptPassword _ => 0
  | .promptConnect _ => 0
  | .promptRestart _ => 1
  | .warning _ k => k.code
  | .journalRecords | .journalCreditLow => 0
  | .adminCommit o => o.code
  | .adminRefused => 0
  | .adminPlan o => o.code

/-- An entry given to its class's queue: it replaces a queued entry of the same subject in place, and
joins the tail otherwise (R142). -/
def queueNotice (q : List Notice) (e : Notice) : List Notice :=
  if q.any (fun x => x.subject == e.subject) then
    q.map (fun x => if x.subject == e.subject then e else x)
  else q ++ [e]

/-- The queue of a class. -/
def Attention.queue (a : Attention) (k : ClassNo) : List Notice := a.queues[k]

/-- Replaces the queue of a class. -/
def Attention.setQueue (a : Attention) (k : ClassNo) (q : List Notice) : Attention :=
  { a with queues := a.queues.set k q }

/-- The in-service entry of a class. -/
def Attention.served (a : Attention) (k : ClassNo) : Option Notice := a.inService[k]

/-- Replaces the in-service entry of a class. -/
def Attention.setServed (a : Attention) (k : ClassNo) (e : Option Notice) : Attention :=
  { a with inService := a.inService.set k e }

/-- Gives an entry to the Attention Controller (R142). -/
def State.give (s : State) (e : Notice) : State :=
  { s with attention := s.attention.setQueue e.cls (queueNotice (s.attention.queue e.cls) e) }

/-- A queue without the entries of a line. -/
def withoutLine (n : LineNo) (q : List Notice) : List Notice :=
  q.filter (fun x => x.subject != BitVec.ofFin n)

/-- Withdraws line n's queued PROMPT_PASSWORD and PROMPT_NAME entries (R143). -/
def State.withdrawPrompts (s : State) (n : LineNo) : State :=
  let a := s.attention
  let a := a.setQueue 3 (withoutLine n (a.queue 3))
  { s with attention := a.setQueue 4 (withoutLine n (a.queue 4)) }

/-! ## The refused-write latch (R161) -/

/-- Records a refused write: the first after a clearing gives ADMIN(REFUSED), a later one sets more. -/
def State.refuse (s : State) (m : Master) (o : Offset) : State :=
  if s.bus.latch.valid then
    { s with bus := { s.bus with latch := { valid := true, offset := o, master := m, more := true } } }
  else
    State.give
      { s with bus := { s.bus with latch := { valid := true, offset := o, master := m, more := false } } }
      .adminRefused

/-! ## The forced command slot (R10) -/

/-- The polite time a POLITE HANG_UP starts with, absent for a RUDE one (R3). -/
def startPolite (limit : Nat) (m : Manner) : Option Nat :=
  match m with
  | .polite => some (limit * Config.ticksPerSecond)
  | .rude => none

/-- A request for a HANG_UP as the slot takes it (R10's table); `limit` is the polite limit in
seconds. -/
def requestHangUp (limit : Nat) (slot : Option Forced) (m : Manner) : Option Forced :=
  match slot with
  | none => some { kind := .hangUp, manner := m, politeLeft := startPolite limit m, awaiting := none }
  | some f =>
    match f.kind with
    | .answer =>
      some { kind := .hangUp, manner := m, politeLeft := startPolite limit m, awaiting := f.awaiting }
    | .hangUp =>
      if f.awaiting = some .hangUp then some f
      else if f.manner = .polite ∧ m = .rude then
        some { f with manner := .rude, politeLeft := none }
      else some f

/-- A request for a RUDE ANSWER as the slot takes it: recorded only in an empty slot (R10). -/
def requestAnswer (slot : Option Forced) : Option Forced :=
  match slot with
  | none => some { kind := .answer, manner := .rude, politeLeft := none, awaiting := none }
  | some f => some f

/-- Requests a HANG_UP for line n. -/
def State.hangUp (s : State) (n : LineNo) (m : Manner) : State :=
  s.updLine n fun r => { r with forced := requestHangUp s.plan.politeLimit r.forced m }

/-- A slot whose undelivered forced ANSWER is withdrawn; one awaiting acknowledge stays (R10). -/
def withdrawAnswer (slot : Option Forced) : Option Forced :=
  match slot with
  | some f => if f.kind = .answer ∧ f.awaiting = none then none else some f
  | none => none

/-- Withdraws line n's undelivered forced ANSWER. -/
def State.withdrawAnswer (s : State) (n : LineNo) : State :=
  s.updLine n fun r => { r with forced := Machine.withdrawAnswer r.forced }

/-- The HANG_UP that a dialogue clear requests; a processor HANG_UP write requests none and withdraws
an undelivered ANSWER (R13, R36). -/
def State.hangUpFor (s : State) (n : LineNo) (m : Option Manner) : State :=
  match m with
  | some m => s.hangUp n m
  | none => s.withdrawAnswer n

/-! ## Entry to CLEARING and to the states of a mode (R2, R15, R16) -/

/-- The polite time a slot's POLITE HANG_UP adds to the clearing time (R15). -/
def politeAddition (slot : Option Forced) : Nat :=
  match slot with
  | some f => if f.kind = .hangUp ∧ f.manner = .polite then f.politeLeft.getD 0 else 0
  | none => 0

/-- A line record put in CLEARING (R15). -/
def LineRecord.toClearing (r : LineRecord) : LineRecord :=
  { r with
    state := .clearing
    clearing := some { ackSeen := false
                       timeLeft := Config.clearingTicks + politeAddition r.forced
                       modeAfter := r.mode }
    doubt := none, answer := none, ringGone := none }

/-- Puts line n in CLEARING (R15). -/
def State.enterClearing (s : State) (n : LineNo) : State := s.updLine n LineRecord.toClearing

/-- A line record in the state of a mode: IDLE for WATCHED, with last-seen carrier and ring set clear,
OFF for OFF and PASSIVE for PASSIVE (R2, R16). -/
def LineRecord.toMode (r : LineRecord) (m : LineMode) : LineRecord :=
  match m with
  | .watched => { r with state := .idle, lastCarrier := false, lastRing := false }
  | .off => { r with state := .off }
  | .passive => { r with state := .passive }

/-- The line states in which a dialogue runs (R28). -/
def LineState.inDialogue (x : LineState) : Bool :=
  match x with
  | .answering | .name | .password | .checking => true
  | .off | .passive | .idle | .ringing | .signedOn | .clearing => false

/-- Takes line n out of the answer queue, the rest keeping their order, and removes its ring-gone
timer (R24, R27). -/
def State.leaveQueue (s : State) (n : LineNo) : State :=
  State.updLine { s with answerQueue := s.answerQueue.filter (· != n) } n
    fun r => { r with ringGone := none }

end Sys2Proof.Machine
end

