-- ==== Sys2Proof/Machine/Flags.lean ====
section
/-!
DEFINITION. Every flag and value the part computes from its state rather than holds: priority and the
pollable classes, ATTN, journal credit, the words its overlay reads return.
-/

namespace Sys2Proof.Machine

/-- A word made of fields, each a value and the position of its least significant bit. -/
def packWord (fields : List (Nat × Nat)) : Word :=
  fields.foldl (fun w f => w ||| (BitVec.ofNat 16 f.1 <<< f.2)) 0#16

/-! ## Priority and the pollable classes (R144 to R146) -/

/-- A class's place in the priority order, 0 the highest (R144). -/
def Attention.rank (a : Attention) (k : ClassNo) : Nat := (k.val + 7 - a.lowest.val) % 8

/-- The classes from the highest priority to the lowest: L+1, L+2 and so on round to L (R144). -/
def Attention.order (a : Attention) : List ClassNo :=
  (List.finRange 8).map fun i => a.lowest + 1 + i

/-- The class ranks above every class that has an in-service entry (R145). -/
def Attention.outranksServed (a : Attention) (k : ClassNo) : Bool :=
  (List.finRange 8).all fun j => (a.served j).isNone || a.rank k < a.rank j

/-- The class is pollable (R145). -/
def Attention.pollable (a : Attention) (k : ClassNo) : Bool :=
  !(a.queue k).isEmpty && !a.mask.getLsbD k.val && (a.served k).isNone
    && (a.specialMask || a.outranksServed k)

/-- The highest-ranked pollable class (R147). -/
def Attention.firstPollable (a : Attention) : Option ClassNo := a.order.find? a.pollable

/-- The highest-ranked class with an in-service entry (R148). -/
def Attention.firstServed (a : Attention) : Option ClassNo :=
  a.order.find? fun k => (a.served k).isSome

/-- Some class is pollable: the level of ATTN (R146). -/
def Attention.anyPollable (a : Attention) : Bool := (List.finRange 8).any a.pollable

/-- Sets the ATTN pin by the pollable classes (R146). -/
def State.refreshAttn (s : State) : State :=
  { s with pins := { s.pins with attn := s.attention.anyPollable } }

/-- The classes with non-empty queues, as the bits of a number (R151). -/
def Attention.waitingBits (a : Attention) : Nat :=
  (List.finRange 8).foldl (fun n k => if (a.queue k).isEmpty then n else n + 2 ^ k.val) 0

/-- The classes with an in-service entry, as the bits of a number (R152). -/
def Attention.servedBits (a : Attention) : Nat :=
  (List.finRange 8).foldl (fun n k => if (a.served k).isSome then n + 2 ^ k.val else n) 0

/-! ## Counts and credit (R28, R127) -/

/-- Contexts held (R28). -/
def State.heldContexts (s : State) : Nat :=
  ((List.finRange 8).filter fun k => (s.ctx k).holder.isSome).length

/-- Open sessions (R127). -/
def State.openSessions (s : State) : Nat :=
  ((List.finRange 64).filter fun n => (s.session n).isSome).length

/-- What already has a claim on the journal: visible and queued records, held contexts and open
sessions (R127). -/
def State.claims (s : State) : Nat :=
  s.journal.visible + s.journal.queue.length + s.heldContexts + s.openSessions

/-- Journal credit (R127). -/
def State.credit (s : State) : Nat := s.journal.capacity - s.claims

/-- Answering stopped is shown exactly while credit is 0 (R38). -/
def State.answeringStopped (s : State) : Bool := s.credit == 0

/-- The ring is full: the visible count equals C and C is above 0 (R137). -/
def Journal.full (j : Journal) : Bool := j.visible == j.capacity && decide (0 < j.capacity)

/-! ## Accounts -/

/-- The class of the account in a slot (R65). -/
def State.classOf (s : State) (i : SlotNo) : Option AccountClass := (s.slot i).map (·.cls)

/-- The account in the slot is of class OPERATOR. -/
def State.isOperator (s : State) (i : SlotNo) : Bool := s.classOf i == some .operator

/-- The permit cell of a class (R107). -/
def State.permit (s : State) (c : AccountClass) : Permit :=
  s.meter.permits[quarter (classCode c)]

/-- The current band is in the class's set of sign-on bands (R72). -/
def State.maySignOn (s : State) (c : AccountClass) : Bool :=
  (s.permit c).signOn.getLsbD s.meter.band.val

/-- The current band is in the class's hold set (R107, R113). -/
def State.mayHold (s : State) (c : AccountClass) : Bool :=
  (s.permit c).hold.getLsbD s.meter.band.val

/-- The rate for a band and a speed class: seconds per charge unit, 0 for free (R106). -/
def State.rate (s : State) (b : BandNo) (v : SpeedNo) : Nat :=
  s.meter.tariffs[(⟨(4 * b.val + v.val) % 16, Nat.mod_lt _ (by decide)⟩ : Fin 16)]

/-! ## The words overlay reads return (R170 to R172) -/

/-- Session status word 0: the state code, 10 for SIGNED_ON with a grace present (R170). -/
def stateCode (x : LineState) (grace : Bool) : Nat :=
  match x with
  | .off => 0
  | .passive => 1
  | .idle => 2
  | .ringing => 3
  | .answering => 4
  | .name => 5
  | .password => 6
  | .checking => 7
  | .signedOn => if grace then 10 else 8
  | .clearing => 9

/-- Line n's session has a grace. -/
def State.gracePresent (s : State) (n : LineNo) : Bool :=
  match s.session n with
  | some x => x.grace.isSome
  | none => false

/-- Session status word 0 of line n (R21, R170). -/
def State.statusWord0 (s : State) (n : LineNo) : Word :=
  let r := s.line n
  packWord [(stateCode r.state (s.gracePresent n), 0), (r.speed.val, 4), (r.sticky.toNat, 6),
    (r.missed, 11), (r.forced.isSome.toNat, 15)]

/-- The units charged to a session so far: band counters and overrun, stopping at 65535 (R22, R108). -/
def Session.charged (x : Session) : Nat :=
  min (x.units[0] + x.units[1] + x.units[2] + x.units[3] + x.overrun) Config.maxCount

/-- The account number a slot holds; 0 for an EMPTY slot, which no session names (log 9). -/
def State.numberOf (s : State) (i : SlotNo) : Word :=
  match s.slot i with
  | some a => a.number
  | none => 0#16

/-- Session status words 1 to 3 of line n (R22); word 0 is `statusWord0`. -/
def State.statusWord (s : State) (n : LineNo) (k : Fin 4) : Word :=
  match k, s.session n with
  | 0, _ => s.statusWord0 n
  | 1, some x => BitVec.ofNat 16 x.slot.val
  | 1, none => 0xFFFF#16
  | 2, some x => s.numberOf x.slot
  | 2, none => 0#16
  | 3, some x => BitVec.ofNat 16 x.charged
  | 3, none => 0#16

/-- The code of a line mode (R170). -/
def modeCode (m : LineMode) : Nat :=
  match m with
  | .off => 0
  | .watched => 1
  | .passive => 2

/-- The line setting cell as read: the current mode, load flag and HANG 0 (R18). -/
def State.settingWord (s : State) (n : LineNo) : Word := packWord [(modeCode (s.line n).mode, 0)]

/-- The poll word of an entry (R171). -/
def Notice.word (e : Notice) : Word :=
  packWord [(e.detail, 0), (e.subject.toNat, 6), (e.cls.val, 12), (1, 15)]

/-- The mask cell as read (R151, R171). -/
def Attention.maskWord (a : Attention) : Word := packWord [(a.mask.toNat, 0), (a.waitingBits, 8)]

/-- The mode cell as read (R152, R171). -/
def Attention.modeWord (a : Attention) : Word :=
  packWord [(a.autoDone.toNat, 0), (a.autoRotate.toNat, 1), (a.specialMask.toNat, 2),
    (a.lowest.val, 4), (a.servedBits, 8)]

/-- The code of the plan state (R172). -/
def planCode (p : PlanState) : Nat :=
  match p with
  | .unplanned => 0
  | .planning _ => 1
  | .planned => 2

/-- The next plan word while PLANNING, 0 otherwise (R163). -/
def nextPlanWord (p : PlanState) : Nat :=
  match p with
  | .planning k => k
  | .unplanned | .planned => 0

/-- The code of a master (R172). -/
def masterCode (m : Master) : Nat :=
  match m with
  | .processor => 0
  | .scanner => 1

/-- The part status cell (R163, R172). -/
def State.partStatusWord (s : State) : Word :=
  packWord [(planCode s.plan.state, 0), (nextPlanWord s.plan.state, 2), (s.heldContexts, 8),
    (s.bus.latch.valid.toNat, 12), (s.bus.latch.more.toNat, 13),
    (masterCode s.bus.latch.master, 14), (s.answeringStopped.toNat, 15)]

/-- The journal head cell (R137, R172). -/
def Journal.headWord (j : Journal) : Word := packWord [(j.head, 0), (j.full.toNat, 15)]

/-- The journal tail cell (R138, R172). -/
def Journal.tailWord (j : Journal) : Word := packWord [(j.tail, 0)]

/-- The refused-write latch cell (R162, R172). -/
def Latch.word (l : Latch) : Word :=
  if l.valid then packWord [(l.offset.toNat, 0), (1, 15)] else 0#16

/-- The census word of a slot holding an account (R82, R172). -/
def censusWord (i : SlotNo) (a : Account) : Word :=
  packWord [(i.val, 0), (a.openSessions, 11), (a.alarm.toNat, 14), (1, 15)]

/-- Receipt cell 0CBh: target slot and operation as in staging word 0 (R88, R172). -/
def Staging.targetWord (g : Staging) : Word :=
  packWord [(field (g.record.word 0) 0 11, 0), (field (g.record.word 0) 12 2, 12)]

/-- Receipt cell 0CCh: end offset, gapless flag and last outcome (R88, R172). -/
def Staging.stateWord (g : Staging) : Word :=
  packWord [(g.record.last.val, 0), (g.record.gapless.toNat, 4), (g.outcome.code, 8)]

/-- Receipt cell 0CDh: the staging check word, over no words while the fill set is empty (R88). -/
def Staging.checkCell (g : Staging) : Word :=
  if g.record.anyFilled then
    checkWords (((List.finRange 16).filter (· ≤ g.record.last)).map g.record.word)
  else checkWords []

/-- The clock minute cell (R103, R172). -/
def Meter.minuteWord (m : Meter) : Word := packWord [(m.minute, 0), (m.weekday, 12)]

/-- The code of the sets of a permit cell (R107, R172). -/
def Permit.word (p : Permit) : Word := packWord [(p.signOn.toNat, 0), (p.hold.toNat, 4)]

/-- The credit cell (R129, R172). -/
def State.creditWord (s : State) : Word := packWord [(s.credit, 0)]

end Sys2Proof.Machine
end

