-- ==== Sys2Proof/Machine/Event.lean ====
section
/-!
DEFINITION. The frame every command runs in: the part takes one event at a time, whole, and ATTN
changes in the event that changes the pollable set.
-/

namespace Sys2Proof.Machine

/-- One event of the part: its effect, and then ATTN by the pollable classes (R146). While PORN is low
every block is held at its power-on values and the event has no effect (R177). -/
def event (f : State → State) (s : State) : Host.Outcome State Fault Refusal :=
  .next (if s.pins.porn then (f s).refreshAttn else s)

/-- An event that is a read: its effect gives the word returned, which is put on BD (R177). -/
def readEvent (f : State → Word × State) (s : State) : Host.Outcome State Fault Refusal :=
  event (fun s => (f s).2.setBd (f s).1) s

end Sys2Proof.Machine
end

