-- ==== Sys2Proof/Machine/Attention.lean ====
section
/-!
DEFINITION. The Attention Controller's polls and commands (08_attention.md, R147 to R152).
-/

namespace Sys2Proof.Machine

/-- Replaces the Attention Controller's state. -/
def State.setAttention (s : State) (a : Attention) : State := { s with attention := a }

/-! ## The poll (R147, R150) -/

/-- The controller after the head entry of class k was polled: its rest queued, and the entry placed in
service, or in auto-done mode not placed in service and the class made lowest if auto-rotate is on. -/
def Attention.polled (a : Attention) (k : ClassNo) (e : Notice) (rest : List Notice) : Attention :=
  let b := a.setQueue k rest
  if a.autoDone then
    if a.autoRotate then { b with lowest := k } else b
  else b.setServed k (some e)

/-- A poll: the entry returned, if some class is pollable, and the controller after it (R147). -/
def Attention.poll (a : Attention) : Option Notice × Attention :=
  match a.firstPollable with
  | none => (none, a)
  | some k =>
    match a.queue k with
    | [] => (none, a)
    | e :: rest => (some e, a.polled k e rest)

/-- The poll word: the entry's, or the empty word (R147, R171). -/
def pollWord (e : Option Notice) : Word :=
  match e with
  | some e => e.word
  | none => 0#16

/-- A processor read of the attention cell (R147). -/
def State.readAttention (s : State) : Word × State :=
  (pollWord s.attention.poll.1, s.setAttention s.attention.poll.2)

/-- POLL (R147). -/
def execPoll (s : State) : Host.Outcome State Fault Refusal :=
  readEvent State.readAttention s

/-! ## Commands (R148, R149) -/

/-- Non-specific done: ends the in-service entry of the highest-ranked class that has one. -/
def Attention.doneFirst (a : Attention) : Attention :=
  match a.firstServed with
  | some k => a.setServed k none
  | none => a

/-- Specific done of class k. -/
def Attention.doneClass (a : Attention) (k : ClassNo) : Attention := a.setServed k none

/-- Set lowest: class k becomes L. -/
def Attention.setLowest (a : Attention) (k : ClassNo) : Attention := { a with lowest := k }

/-- Rotate-on-non-specific done: as non-specific done, then the class ended becomes L; nothing when no
class has an in-service entry. -/
def Attention.rotateFirst (a : Attention) : Attention :=
  match a.firstServed with
  | some k => (a.doneClass k).setLowest k
  | none => a

/-- Rotate-on-specific done of class k: nothing when k has no in-service entry. -/
def Attention.rotateClass (a : Attention) (k : ClassNo) : Attention :=
  if (a.served k).isSome then (a.doneClass k).setLowest k else a

/-- NON_SPECIFIC_DONE (R148). -/
def execNonSpecificDone (s : State) : Host.Outcome State Fault Refusal :=
  event (fun s => s.setAttention s.attention.doneFirst) s

/-- SPECIFIC_DONE (R148). -/
def execSpecificDone (k : ClassNo) (s : State) : Host.Outcome State Fault Refusal :=
  event (fun s => s.setAttention (s.attention.doneClass k)) s

/-- ROTATE_ON_NON_SPECIFIC_DONE (R148). -/
def execRotateOnNonSpecificDone (s : State) : Host.Outcome State Fault Refusal :=
  event (fun s => s.setAttention s.attention.rotateFirst) s

/-- ROTATE_ON_SPECIFIC_DONE (R148). -/
def execRotateOnSpecificDone (k : ClassNo) (s : State) : Host.Outcome State Fault Refusal :=
  event (fun s => s.setAttention (s.attention.rotateClass k)) s

/-- SET_LOWEST (R148). -/
def execSetLowest (k : ClassNo) (s : State) : Host.Outcome State Fault Refusal :=
  event (fun s => s.setAttention (s.attention.setLowest k)) s

/-- A processor write to the attention cell: its command, or a refusal for an unassigned code (R148). -/
def State.writeAttention (s : State) (w : Word) : State :=
  match attentionCode w with
  | 1 => s.setAttention s.attention.doneFirst
  | 2 => s.setAttention (s.attention.doneClass (commandClass w))
  | 3 => s.setAttention s.attention.rotateFirst
  | 4 => s.setAttention (s.attention.rotateClass (commandClass w))
  | 5 => s.setAttention (s.attention.setLowest (commandClass w))
  | _ => s.refuse .processor attentionOffset

/-! ## The mask and mode cells (R151, R152) -/

/-- A processor write to the mask cell (R151). -/
def State.writeMask (s : State) (w : Word) : State :=
  s.setAttention { s.attention with mask := w.extractLsb' 0 8 }

/-- MASK_WRITE (R151). -/
def execMaskWrite (w : Word) (s : State) : Host.Outcome State Fault Refusal :=
  event (fun s => s.writeMask w) s

/-- A processor write to the mode cell (R152). -/
def State.writeMode (s : State) (w : Word) : State :=
  s.setAttention { s.attention with
    autoDone := w.getLsbD 0, autoRotate := w.getLsbD 1, specialMask := w.getLsbD 2 }

/-- MODE_WRITE (R152). -/
def execModeWrite (w : Word) (s : State) : Host.Outcome State Fault Refusal :=
  event (fun s => s.writeMode w) s

end Sys2Proof.Machine
end

