-- ==== Sys2Proof/Machine/Answering.lean ====
section
/-!
DEFINITION. The Answer Arbiter (02_answering.md): grants, the dialogue clear that returns a context,
and the expiries of the ring-gone and answer timers.
-/

namespace Sys2Proof.Machine

/-! ## Grants (R28 to R31) -/

/-- The lowest-numbered FREE context (R29). -/
def State.freeContext (s : State) : Option CtxNo :=
  (List.finRange 8).find? fun k => (s.ctx k).holder.isNone

/-- The oldest queued line that is eligible: its record-pending flag is clear (R29). -/
def State.eligibleLine (s : State) : Option LineNo :=
  s.answerQueue.find? fun n => !(s.line n).recordPending

/-- A fall of credit from above the low mark to it or below gives JOURNAL(CREDIT_LOW) (R128). -/
def State.reportCreditFall (s : State) (before : Nat) : State :=
  if s.journal.lowMark < before && s.credit ≤ s.journal.lowMark then s.give .journalCreditLow
  else s

/-- The line record of a granted line: it holds context k and is in ANSWERING with its answer timer
started and a RUDE ANSWER requested (R31). -/
def LineRecord.granted (r : LineRecord) (k : CtxNo) (answerTime : Nat) : LineRecord :=
  { r with context := some k, ringGone := none, state := .answering,
           answer := some (answerTime * Config.ticksPerSecond), forced := requestAnswer r.forced }

/-- A grant of context k to line n (R31). -/
def State.grant (s : State) (k : CtxNo) (n : LineNo) : State :=
  let before := s.credit
  let s := s.setCtx k (Context.fresh (some n))
  let s := s.leaveQueue n
  let s := s.updLine n fun r => r.granted k s.plan.answerTime
  s.reportCreditFall before

/-- The next grant R29 allows, if any: a FREE context, credit at least 1, the plan PLANNED, and an
eligible line. -/
def State.nextGrant (s : State) : Option (CtxNo × LineNo) :=
  if s.plan.state = .planned ∧ 1 ≤ s.credit then
    match s.freeContext, s.eligibleLine with
    | some k, some n => some (k, n)
    | _, _ => none
  else none

/-- Grants made one after another, at most `fuel` of them. -/
def State.grants : Nat → State → State
  | 0, s => s
  | fuel + 1, s =>
    match s.nextGrant with
    | some (k, n) => State.grants fuel (s.grant k n)
    | none => s

/-- A grant evaluation: grants until R29 allows none (R30). Each grant holds one of the eight contexts,
so eight are enough. -/
def State.evaluateGrants (s : State) : State := State.grants 8 s

/-! ## The dialogue clear (R36) -/

/-- The request is a lookup of context k. -/
def Request.isLookupOf (q : Request) (k : CtxNo) : Bool :=
  match q with
  | .lookup _ _ _ j _ => j == k
  | .commit _ => false

/-- Withdraws context k's waiting lookup; the requests behind it keep their order (R53, R71). -/
def State.withdrawLookup (s : State) (k : CtxNo) : State :=
  { s with directory := { s.directory with
      queue := s.directory.queue.filter fun q => !q.isLookupOf k } }

/-- A context freed: no holder, the sign-on time removed, the rest kept (R40, R42). -/
def Context.freed (c : Context) : Context := { c with holder := none, signOnTime := none }

/-- Frees the context that line n holds, withdrawing a QUEUED lookup first, and removes the line's
context number (R36 steps 2 and 3). -/
def State.releaseContext (s : State) (n : LineNo) : State :=
  match (s.line n).context with
  | some k =>
    let s := if (s.ctx k).lookup = .queued then s.withdrawLookup k else s
    let s := s.updCtx k Context.freed
    s.updLine n fun r => { r with context := none }
  | none => s

/-- A dialogue clear of line n (R36), with the HANG_UP its cause names. -/
def State.clearDialogue (s : State) (n : LineNo) (reason : RejectReason) (hang : Option Manner) :
    State :=
  let s := s.give (.rejected n reason)
  let s := s.withdrawPrompts n
  let s := s.releaseContext n
  let s := s.hangUpFor n hang
  let s := s.enterClearing n
  s.evaluateGrants

/-! ## The commands -/

/-- The ring-gone expiry's effect (R26). It arises only on a RINGING line whose timer has run out. -/
def State.ringGoneExpired (s : State) (n : LineNo) : State :=
  if (s.line n).state = .ringing ∧ (s.line n).ringGone = some 0 then
    (s.leaveQueue n).updLine n fun r =>
      { r.toMode .watched with missed := min (r.missed + 1) 15 }
  else s

/-- RING_GONE_EXPIRY (R26). -/
def execRingGoneExpiry (n : LineNo) (s : State) : Host.Outcome State Fault Refusal :=
  event (fun s => s.ringGoneExpired n) s

/-- The answer timer's expiry (R34). It arises only in ANSWERING on a timer that has run out. -/
def State.answerExpired (s : State) (n : LineNo) : State :=
  if (s.line n).state = .answering ∧ (s.line n).answer = some 0 then
    s.clearDialogue n .noCarrier (some .rude)
  else s

/-- ANSWER_TIMER_EXPIRY (R34). -/
def execAnswerTimerExpiry (n : LineNo) (s : State) : Host.Outcome State Fault Refusal :=
  event (fun s => s.answerExpired n) s

end Sys2Proof.Machine
end

