-- ==== Sys2Proof/Machine/Sessions.lean ====
section
/-!
DEFINITION. Sessions and graces (06_tariffs_and_the_meter.md, R108 to R119): adding and removing grace
reasons, opening a session, building its journal record and closing it.
-/

namespace Sys2Proof.Machine

/-! ## Graces (R113) -/

/-- The two grace reasons (R108). -/
inductive GraceReason where
  | noBudget
  | bandBarred
  deriving DecidableEq, Repr

/-- The WARNING an added reason gives (R113). -/
def GraceReason.warning (g : GraceReason) : WarningKind :=
  match g with
  | .noBudget => .budgetGone
  | .bandBarred => .bandBarred

/-- The reason is in the grace's set. -/
def Grace.has (c : Grace) (g : GraceReason) : Bool :=
  match g with
  | .noBudget => c.noBudget
  | .bandBarred => c.bandBarred

/-- The grace with a reason put in its set or taken out of it; the seconds left are not changed. -/
def Grace.put (c : Grace) (g : GraceReason) (b : Bool) : Grace :=
  match g with
  | .noBudget => { c with noBudget := b }
  | .bandBarred => { c with bandBarred := b }

/-- The set of reasons is empty. -/
def Grace.noReason (c : Grace) : Bool := !c.noBudget && !c.bandBarred

/-- A grace created with one reason and the grace seconds (R113). -/
def Grace.start (g : GraceReason) (seconds : Nat) : Grace :=
  Grace.put { noBudget := false, bandBarred := false, left := seconds } g true

/-- A reason added to line n's session, with its WARNING when it was not there (R113). -/
def State.addReason (s : State) (n : LineNo) (g : GraceReason) : State :=
  match s.session n with
  | none => s
  | some x =>
    match x.grace with
    | none =>
      (s.setSession n (some { x with grace := some (Grace.start g s.plan.graceSeconds) })).give
        (.warning n g.warning)
    | some c =>
      if c.has g then s
      else (s.setSession n (some { x with grace := some (c.put g true) })).give
        (.warning n g.warning)

/-- A reason taken out of the set of line n's grace (R113). -/
def State.dropReason (s : State) (n : LineNo) (g : GraceReason) : State :=
  s.updSession n fun x => { x with grace := x.grace.map fun c => c.put g false }

/-- A grace left with no reason ends, and the session goes on with none (R94, R113). -/
def State.endEmptyGrace (s : State) (n : LineNo) : State :=
  s.updSession n fun x => { x with grace := x.grace.filter fun c => !c.noReason }

/-- A reason removed from line n's session; a grace left with none is removed (R113). -/
def State.removeReason (s : State) (n : LineNo) (g : GraceReason) : State :=
  (s.dropReason n g).endEmptyGrace n

/-- A reason brought into line: added when due, removed when not (R94, R113). -/
def State.judgeReason (s : State) (n : LineNo) (g : GraceReason) (due : Bool) : State :=
  if due then s.addReason n g else s.removeReason n g

/-- BAND_BARRED judged on line n's session, whose slot is i, against the current band and the hold set
of its class; an OPERATOR session is not judged (R107, R115). -/
def State.judgeBand (s : State) (n : LineNo) (i : SlotNo) : State :=
  match s.classOf i with
  | none => s
  | some .operator => s
  | some c => s.judgeReason n .bandBarred (!s.mayHold c)

/-! ## Opening (R109) -/

/-- A session record as created at an open (R109). -/
def State.newSession (s : State) (i : SlotNo) : Session :=
  { slot := i, openDay := s.meter.day, openMinute := s.meter.minute, seconds := 0,
    units := Vector.replicate 4 0, overrun := 0, charge := 0, grace := none,
    budgetWarned := false, idleWarned := false, faults := 0 }

/-- R109's first judgement: a budget at or below the warning threshold warns the line. -/
def State.judgeLowBudget (s : State) (n : LineNo) (i : SlotNo) : State :=
  match s.slot i with
  | none => s
  | some a =>
    if a.cls ≠ .operator ∧ a.budget ≤ s.plan.warnThreshold then
      (s.give (.warning n .budgetLow)).updSession n fun x => { x with budgetWarned := true }
    else s

/-- R109's second judgement: a band outside the class's hold set starts a BAND_BARRED grace. -/
def State.judgeOpenBand (s : State) (n : LineNo) (i : SlotNo) : State :=
  match s.classOf i with
  | none => s
  | some c => if c ≠ .operator ∧ !s.mayHold c then s.addReason n .bandBarred else s

/-- Opens line n's session on slot i (R109). -/
def State.openSession (s : State) (n : LineNo) (i : SlotNo) : State :=
  let s := s.setSession n (some (s.newSession i))
  let s := s.judgeLowBudget n i
  s.judgeOpenBand n i

/-! ## The journal record and the close (R118, R119, R124, R125) -/

/-- Record word 3: the slot and the low five bits of the line (R175). -/
def recordPlace (i : SlotNo) (n : LineNo) : Word := packWord [(i.val, 0), (n.val % 32, 11)]

/-- Record word 4: speed class, account class, close reason, fault summary, the two warned flags and
the line's sixth bit (R175). Bits 13 and 14, to which R175 assigns no field, are 0: DESIGN CHOICE
(log 30). -/
def recordFlags (v : SpeedNo) (c : AccountClass) (reason : CloseReason) (x : Session) (n : LineNo) :
    Word :=
  packWord [(v.val, 0), (classCode c, 2), (reason.code, 4), (x.faults.toNat, 7),
    (x.budgetWarned.toNat, 11), (x.idleWarned.toNat, 12), (n.val / 32, 15)]

/-- Words 1 to 15 of the record of line n's session, closed for a reason (R119, R124). -/
def State.recordBody (s : State) (n : LineNo) (x : Session) (reason : CloseReason) : List Word :=
  [s.journal.sequence, s.numberOf x.slot, recordPlace x.slot n,
    recordFlags (s.line n).speed ((s.classOf x.slot).getD .student) reason x n,
    x.openDay, BitVec.ofNat 16 x.openMinute, s.meter.day, BitVec.ofNat 16 s.meter.minute,
    BitVec.ofNat 16 (x.seconds / 65536), BitVec.ofNat 16 x.seconds,
    BitVec.ofNat 16 x.units[0], BitVec.ofNat 16 x.units[1], BitVec.ofNat 16 x.units[2],
    BitVec.ofNat 16 x.units[3], BitVec.ofNat 16 x.overrun]

/-- The record of line n's session: the fifteen words and their check word (R125). -/
def State.buildRecord (s : State) (n : LineNo) (x : Session) (reason : CloseReason) :
    JournalRecord :=
  let body := s.recordBody n x reason
  { line := n, words := ⟨(body ++ [checkWords body]).toArray, by simp [body, State.recordBody]⟩ }

/-- Appends a built record to the posting queue and counts its sequence number (R118, R125). -/
def State.queueRecord (s : State) (r : JournalRecord) : State :=
  { s with journal := { s.journal with
      queue := s.journal.queue ++ [r], sequence := s.journal.sequence + 1 } }

/-- Closes line n's session for a reason, with the HANG_UP its cause names (R118). -/
def State.closeSession (s : State) (n : LineNo) (reason : CloseReason) (hang : Option Manner) :
    State :=
  match s.session n with
  | none => s
  | some x =>
    let s := s.queueRecord (s.buildRecord n x reason)
    let s := s.updLine n fun r => { r with recordPending := true }
    let s := s.updSlot x.slot fun a => { a with openSessions := a.openSessions - 1 }
    let s := s.give (.closed n reason)
    let s := s.setSession n none
    let s := match hang with
      | some m => s.hangUp n m
      | none => s
    s.enterClearing n

/-- The reason a grace's expiry closes for (R114). -/
def Grace.closeReason (c : Grace) : CloseReason := if c.noBudget then .noBudget else .bandBarred

/-- The expiry of a grace whose seconds left are 0 (R114). -/
def State.graceExpired (s : State) (n : LineNo) : State :=
  match s.session n with
  | none => s
  | some x =>
    match x.grace with
    | none => s
    | some c => if c.left = 0 then s.closeSession n c.closeReason (some .polite) else s

/-- GRACE_EXPIRY (R114). It arises only where a grace stands at 0 seconds; the second tick that brings
one there takes it in its own event (R110, log 5). -/
def execGraceExpiry (n : LineNo) (s : State) : Host.Outcome State Fault Refusal :=
  event (fun s => s.graceExpired n) s

/-- The idle limit reached by a session whose account is not OPERATOR (R116 step 4). -/
def State.idleExpired (s : State) (n : LineNo) : State :=
  match s.session n with
  | none => s
  | some x =>
    match s.classOf x.slot with
    | none => s
    | some .operator => s
    | some _ =>
      if (s.line n).idle = s.plan.idleLimit then s.closeSession n .idle (some .polite) else s

/-- IDLE_LIMIT (R116). It arises only where the idle minutes equal the idle limit; the minute tick
that brings them there takes it in its own event (log 5). -/
def execIdleLimit (n : LineNo) (s : State) : Host.Outcome State Fault Refusal :=
  event (fun s => s.idleExpired n) s

end Sys2Proof.Machine
end

