-- ==== Sys2Proof/Machine/Lines.lean ====
section
/-!
DEFINITION. The Line Monitor (01_lines.md): status words, the command-word handshake, transmit indices,
carrier doubt, clearing, line setting cells and session status cells.
-/

namespace Sys2Proof.Machine

/-! ## Clearing (R16, R17) -/

/-- Ends line n's CLEARING: the line takes the state of the recorded mode (R16). -/
def LineRecord.endClearing (r : LineRecord) : LineRecord :=
  match r.clearing with
  | some c => { r with clearing := none }.toMode c.modeAfter
  | none => r

/-- R16's test on line n: CLEARING, acknowledge seen and last-seen carrier clear. -/
def LineRecord.clearingDone (r : LineRecord) : Bool :=
  r.state == .clearing && (match r.clearing with | some c => c.ackSeen | none => false)
    && !r.lastCarrier

/-- R16's test made at an event that can make it true. -/
def State.testClearing (s : State) (n : LineNo) : State :=
  s.updLine n fun r => if r.clearingDone then r.endClearing else r

/-- The NO_ACK sticky mark (R17, R170). -/
def noAckMark : BitVec 5 := 0x10#5

/-- The GLITCH sticky mark (R8, R170). -/
def glitchMark : BitVec 5 := 0x08#5

/-- The GLITCH mark of a session's fault summary (R8, R175). -/
def glitchFault : BitVec 4 := 0x8#4

/-- The clearing time's expiry (R17). It arises only in CLEARING on a time that has run out. -/
def LineRecord.clearingExpired (r : LineRecord) : LineRecord :=
  match r.state, r.clearing with
  | .clearing, some c =>
    if c.timeLeft = 0 then
      { r with sticky := r.sticky ||| noAckMark, forced := none }.endClearing
    else r
  | _, _ => r

/-- CLEARING_TIME_EXPIRY (R17). -/
def execClearingTimeExpiry (n : LineNo) (s : State) : Host.Outcome State Fault Refusal :=
  event (fun s => s.updLine n LineRecord.clearingExpired) s

/-! ## Status words (R4 to R8, R33) -/

/-- Unsolicited carrier on line n: a rude HANG_UP, CLEARING and REJECTED(UNSOLICITED) (R6). -/
def State.unsolicited (s : State) (n : LineNo) : State :=
  let s := s.leaveQueue n
  let s := s.hangUp n .rude
  let s := s.enterClearing n
  s.give (.rejected n .unsolicited)

/-- The answered call of line n coming up (R33). -/
def State.answered (s : State) (n : LineNo) : State :=
  let limit := s.plan.signOnLimit * Config.ticksPerSecond
  let s := match (s.line n).context with
    | some k => s.updCtx k fun c => { c with signOnTime := some limit }
    | none => s
  let s := s.withdrawAnswer n
  let s := s.updLine n fun r => { r with answer := none, state := .name }
  s.give (.promptConnect n)

/-- A carrier doubt on line n ended by the carrier's return: GLITCH in the sticky marks, and in the
fault summary of a SIGNED_ON line's session (R8). -/
def State.glitch (s : State) (n : LineNo) : State :=
  let s := s.updLine n fun r => { r with doubt := none, sticky := r.sticky ||| glitchMark }
  if (s.line n).state = .signedOn then
    s.updSession n fun x => { x with faults := x.faults ||| glitchFault }
  else s

/-- The speed class set from a word that shows carrier rising (R4). -/
def State.setSpeed (s : State) (n : LineNo) (w : Word) : State :=
  s.updLine n fun r => { r with speed := statusSpeed w }

/-- The carrier rules for a status write on line n (R6 to R8), with the speed class of R4. In CLEARING
the rise and the fall only set last-seen carrier, which `statusWritten` does (log 10). -/
def State.carrierRule (s : State) (n : LineNo) (w : Word) : State :=
  let r := s.line n
  let rising := statusCarrier w && !r.lastCarrier
  let falling := !statusCarrier w && r.lastCarrier
  match r.state with
  | .idle | .ringing =>
    if rising ∧ r.mode = .watched then (s.setSpeed n w).unsolicited n else s
  | .answering => if rising then (s.setSpeed n w).answered n else s
  | .name | .password | .checking | .signedOn =>
    match r.doubt with
    | some _ => if statusCarrier w then s.glitch n else s
    | none =>
      if falling then s.updLine n fun r => { r with doubt := some s.plan.carrierHold }
      else if rising then s.setSpeed n w
      else s
  | .off | .passive | .clearing => s

/-- The ring-gone time in short ticks (R25). -/
def State.ringGoneTicks (s : State) : Nat := s.plan.ringGoneTime * Config.ticksPerSecond

/-- A ring arrival on line n (R25): RINGING, at the tail of the answer queue, its ring-gone timer
started, and grants evaluated. -/
def State.ringArrival (s : State) (n : LineNo) : State :=
  let s := { s with answerQueue := s.answerQueue ++ [n] }
  let s := s.updLine n fun r => { r with state := .ringing, ringGone := some s.ringGoneTicks }
  s.evaluateGrants

/-- The ring rule for a status write on line n (R5). -/
def State.ringRule (s : State) (n : LineNo) (w : Word) : State :=
  let r := s.line n
  if statusRing w then
    match r.state with
    | .idle =>
      if r.mode = .watched ∧ r.lastRing = false ∧ s.plan.state = .planned then s.ringArrival n else s
    | .ringing => s.updLine n fun r => { r with ringGone := some s.ringGoneTicks }
    | .off | .passive | .answering | .name | .password | .checking | .signedOn | .clearing => s
  else s

/-- Last-seen carrier and ring set from a status word (R4). -/
def State.setLastSeen (s : State) (n : LineNo) (w : Word) : State :=
  s.updLine n fun r => { r with lastCarrier := statusCarrier w, lastRing := statusRing w }

/-- A scanner write of line n's status word (R4): it reaches memory; the carrier rules, the ring rule
and last-seen carrier and ring follow, and then R16's test. -/
def State.statusWritten (s : State) (n : LineNo) (w : Word) : State :=
  let s := s.writeArea (statusOffset n) w
  match (s.line n).state with
  | .passive => s
  | .off => s.setLastSeen n w
  | .idle | .ringing | .answering | .name | .password | .checking | .signedOn | .clearing =>
    let s := s.carrierRule n w
    let s := s.ringRule n w
    let s := s.setLastSeen n w
    s.testClearing n

/-- STATUS_WRITE (R4). -/
def execStatusWrite (n : LineNo) (w : Word) (s : State) : Host.Outcome State Fault Refusal :=
  event (fun s => s.statusWritten n w) s

/-- The expiry of line n's carrier doubt (R8). It arises only on a doubt whose hold time has run out. -/
def State.doubtExpired (s : State) (n : LineNo) : State :=
  if (s.line n).doubt = some 0 then
    let s := s.updLine n fun r => { r with doubt := none }
    if (s.line n).state.inDialogue then s.clearDialogue n .carrierLost (some .rude)
    else if (s.line n).state = .signedOn then s.closeSession n .carrierLost (some .rude)
    else s
  else s

/-- CARRIER_DOUBT_EXPIRY (R8). -/
def execCarrierDoubtExpiry (n : LineNo) (s : State) : Host.Outcome State Fault Refusal :=
  event (fun s => s.doubtExpired n) s

/-! ## The command-word handshake (R10 to R13) -/

/-- The line's command word, status word and receive ring are left alone: state OFF or PASSIVE (R2). -/
def LineState.leavesCycles (x : LineState) : Bool :=
  match x with
  | .off | .passive => true
  | .idle | .ringing | .answering | .name | .password | .checking | .signedOn | .clearing => false

/-- An undelivered forced command is deliverable at this read: RUDE at once, POLITE when the transmit
ring has drained or the polite time has expired (R11). -/
def LineRecord.deliverable (r : LineRecord) (f : Forced) : Bool :=
  f.manner == .rude || r.txPut == r.txTake || f.politeLeft.isNone

/-- What a scanner read of a command word meets (R11): the forced command that overlays it, if any, and
the slot after it. -/
def LineRecord.commandRead (r : LineRecord) : Option CommandKind × Option Forced :=
  match r.forced with
  | none => (none, none)
  | some f =>
    match f.awaiting with
    | some k => (some k, some f)
    | none =>
      if r.deliverable f then
        (some f.kind, some { f with awaiting := some f.kind, politeLeft := none })
      else (none, some f)

/-- A scanner read of line n's command word: the word returned (R11). -/
def State.readCommand (s : State) (n : LineNo) : Word × State :=
  if (s.line n).state.leavesCycles then (s.readArea (commandOffset n), s)
  else
    match (s.line n).commandRead with
    | (some k, slot) => (commandCode k, s.updLine n fun r => { r with forced := slot })
    | (none, _) => (s.readArea (commandOffset n), s)

/-- COMMAND_WORD_READ (R11). -/
def execCommandWordRead (n : LineNo) (s : State) : Host.Outcome State Fault Refusal :=
  readEvent (fun s => s.readCommand n) s

/-- The kind a scanner write to line n's command word acknowledges, if one is awaited (R12). -/
def State.awaitedBy (s : State) (n : LineNo) : Option CommandKind :=
  if (s.line n).state.leavesCycles then none
  else match (s.line n).forced with
    | some f => f.awaiting
    | none => none

/-- Acknowledge seen, set in a clearing record (R12). -/
def LineRecord.seeAck (r : LineRecord) : LineRecord :=
  if r.state = .clearing then
    { r with clearing := r.clearing.map fun c => { c with ackSeen := true } }
  else r

/-- The slot after the acknowledge of a delivered kind is taken (R12). -/
def acknowledged (slot : Option Forced) (k : CommandKind) : Option Forced :=
  match slot with
  | some f => if f.kind = k then none else some { f with awaiting := none }
  | none => none

/-- A taken acknowledge of a delivered kind on a line record (R12). -/
def LineRecord.takeAck (r : LineRecord) (k : CommandKind) : LineRecord :=
  let r := { r with forced := acknowledged r.forced k }
  if k = .hangUp then r.seeAck else r

/-- A passing scanner write to a command word: the acknowledge of the processor's command, seen in
CLEARING while the slot is empty (R12). -/
def LineRecord.passAck (r : LineRecord) : LineRecord := if r.forced.isNone then r.seeAck else r

/-- A scanner write to line n's command word (R12): taken when an acknowledge is awaited, else passed to
memory. -/
def State.acknowledge (s : State) (n : LineNo) (w : Word) : State :=
  match s.awaitedBy n with
  | some k => (s.updLine n fun r => r.takeAck k).testClearing n
  | none =>
    let s := s.writeArea (commandOffset n) w
    (s.updLine n LineRecord.passAck).testClearing n

/-- ACKNOWLEDGE (R12). -/
def execAcknowledge (n : LineNo) (w : Word) (s : State) : Host.Outcome State Fault Refusal :=
  event (fun s => s.acknowledge n w) s

/-- A processor HANG_UP command on line n: a session closes with LOGOFF, a dialogue is cleared with
PROCESSOR_CLEAR, and no forced HANG_UP is requested (R13). -/
def State.processorHangUp (s : State) (n : LineNo) : State :=
  if (s.line n).state = .signedOn then s.closeSession n .logoff none
  else if (s.line n).state.inDialogue then s.clearDialogue n .processorClear none
  else s

/-- A processor write to line n's command word: it reaches memory, and only the HANG_UP code is acted
on (R13, R169). -/
def State.processorCommand (s : State) (n : LineNo) (w : Word) : State :=
  let s := s.writeArea (commandOffset n) w
  if w = hangUpCode then s.processorHangUp n else s

/-- PROCESSOR_HANG_UP (R13). -/
def execProcessorHangUp (n : LineNo) (s : State) : Host.Outcome State Fault Refusal :=
  event (fun s => s.processorCommand n hangUpCode) s

/-- The polite time's expiry: a pending POLITE HANG_UP whose time has run out becomes deliverable at the
next read (R11). -/
def politeExpired (slot : Option Forced) : Option Forced :=
  match slot with
  | some f => if f.politeLeft = some 0 then some { f with politeLeft := none } else some f
  | none => none

/-- POLITE_TIME_EXPIRY (R11). It arises only on a polite time that has run out. -/
def execPoliteTimeExpiry (n : LineNo) (s : State) : Host.Outcome State Fault Refusal :=
  event (fun s => s.updLine n fun r => { r with forced := politeExpired r.forced }) s

/-! ## Transmit indices (R14) -/

/-- A processor write to line n's transmit put cell (R14). -/
def State.writePut (s : State) (n : LineNo) (w : Word) : State :=
  (s.writeArea (putOffset n) w).updLine n fun r => { r with txPut := txIndex w }

/-- TRANSMIT_PUT_WRITE (R14). -/
def execTransmitPutWrite (n : LineNo) (w : Word) (s : State) : Host.Outcome State Fault Refusal :=
  event (fun s => s.writePut n w) s

/-- A scanner write to line n's transmit take cell (R14). -/
def State.writeTake (s : State) (n : LineNo) (w : Word) : State :=
  (s.writeArea (takeOffset n) w).updLine n fun r => { r with txTake := txIndex w }

/-- TRANSMIT_TAKE_WRITE (R14). -/
def execTransmitTakeWrite (n : LineNo) (w : Word) (s : State) : Host.Outcome State Fault Refusal :=
  event (fun s => s.writeTake n w) s

/-! ## Line setting cells (R18 to R20) -/

/-- A mode load on line n (R19). -/
def State.modeLoaded (s : State) (n : LineNo) (m : LineMode) : State :=
  if (s.line n).mode = m then s
  else
    let t := s.updLine n fun r => { r with mode := m }
    match (s.line n).state with
    | .off | .passive | .idle => t.updLine n fun r => r.toMode m
    | .ringing => (t.leaveQueue n).updLine n fun r => r.toMode m
    | .answering | .name | .password | .checking => t.clearDialogue n .lineOff (some .rude)
    | .signedOn => t.closeSession n .lineOff (some .polite)
    | .clearing =>
      t.updLine n fun r => { r with clearing := r.clearing.map fun c => { c with modeAfter := m } }

/-- A HANG request on line n (R20). -/
def State.hangRequested (s : State) (n : LineNo) (m : Manner) : State :=
  match (s.line n).state with
  | .signedOn => s.closeSession n .forced (some m)
  | .answering | .name | .password | .checking => s.clearDialogue n .forced (some .rude)
  | .ringing => (s.leaveQueue n).updLine n fun r => r.toMode .watched
  | .clearing => if m = .rude ∧ (s.line n).forced.isSome then s.hangUp n .rude else s
  | .idle | .off | .passive => s

/-- The mode load of a setting word, when its load flag is set (R18). -/
def State.settingModeLoad (s : State) (n : LineNo) (w : Word) : State :=
  match settingLoad w, settingMode w with
  | true, some m => s.modeLoaded n m
  | _, _ => s

/-- The HANG request of a setting word, if any (R18). -/
def State.settingHangRequest (s : State) (n : LineNo) (w : Word) : State :=
  match settingHang w with
  | .request m => s.hangRequested n m
  | .none | .unassigned => s

/-- A processor write to line n's setting cell (R18): refused whole, or its mode load and then its HANG
request. -/
def State.writeSetting (s : State) (n : LineNo) (w : Word) : State :=
  if settingRefused w then s.refuse .processor (settingOffset n)
  else (s.settingModeLoad n w).settingHangRequest n w

/-- MODE_LOAD (R18, R19): a setting write whose load flag is set. -/
def execModeLoad (n : LineNo) (w : Word) (s : State) : Host.Outcome State Fault Refusal :=
  event (fun s => s.writeSetting n w) s

/-- HANG_REQUEST (R18, R20): a setting write with a HANG request and no mode load. -/
def execHangRequest (n : LineNo) (w : Word) (s : State) : Host.Outcome State Fault Refusal :=
  event (fun s => s.writeSetting n w) s

/-! ## Session status cells (R21) -/

/-- A processor read of session status word 0 of line n: the line summary, the sticky marks cleared and
the missed-call count set to 0 (R21). -/
def State.readStatus0 (s : State) (n : LineNo) : Word × State :=
  (s.statusWord0 n, s.updLine n fun r => { r with sticky := 0, missed := 0 })

/-- SESSION_STATUS_READ (R21). -/
def execSessionStatusRead (n : LineNo) (s : State) : Host.Outcome State Fault Refusal :=
  readEvent (fun s => s.readStatus0 n) s

end Sys2Proof.Machine
end

