-- ==== Sys2Proof/Machine/Directory.lean ====
section
/-!
DEFINITION. The Account Directory (04_the_account_directory.md): the request queue, lookups with their
outcomes and the Sign-On Engine's application of them, failures and locks, and the census.
-/

namespace Sys2Proof.Machine

/-! ## The request queue (R69, R70) -/

/-- The lookup state of the context that submitted a lookup, when its service starts: IN_SERVICE if the
context is still held by the lookup's line in CHECKING with its lookup QUEUED (R70). -/
def State.markInService (s : State) (q : Request) : State :=
  match q with
  | .commit _ => s
  | .lookup _ _ _ k n =>
    if (s.ctx k).holder = some n ∧ (s.line n).state = .checking ∧ (s.ctx k).lookup = .queued then
      s.updCtx k fun c => { c with lookup := .inService }
    else s

/-- Starts the service of the request at the head of the queue when none is in service (R70). -/
def State.startService (s : State) : State :=
  match s.directory.inService, s.directory.queue with
  | none, q :: rest =>
    State.markInService { s with directory := { s.directory with queue := rest, inService := some q } } q
  | _, _ => s

/-- A request joins the tail of the queue, and its service starts at once if the directory is idle. -/
def State.submit (s : State) (q : Request) : State :=
  State.startService
    { s with directory := { s.directory with queue := s.directory.queue ++ [q] } }

/-- REQUEST_SERVICE_START (R70). -/
def execRequestServiceStart (s : State) : Host.Outcome State Fault Refusal :=
  event State.startService s

/-! ## Lookup outcomes (R66, R72) -/

/-- A lookup's outcome (R72). -/
inductive LookupOutcome where
  | accept
  | reject (reason : RejectReason)
  deriving DecidableEq, Repr

/-- The slot, if any, whose entry has exactly this name (R66). -/
def State.slotNamed (s : State) (name : List Byte) : Option SlotNo :=
  s.findSlot fun _ a => match a with
    | some a => a.name == name
    | none => false

/-- The lock refuses lookups: TIMED or HELD (R75). -/
def Lock.refuses (l : Lock) : Bool :=
  match l with
  | .none => false
  | .timed _ | .held => true

/-- The outcome of a lookup against the account whose name matched, by R72's checks 2 to 7 in order. -/
def State.judgeAccount (s : State) (a : Account) (check : Word) (passwordLong : Bool) :
    LookupOutcome :=
  if a.lock.refuses then .reject .accountLocked
  else if check ≠ a.check ∨ passwordLong then .reject .badPassword
  else if a.cls ≠ .operator ∧ !s.maySignOn a.cls then .reject .classBarred
  else if a.openSessions = a.maxSessions then .reject .sessionLimit
  else if a.cls ≠ .operator ∧ a.budget = 0 then .reject .noBudget
  else .accept

/-- A lookup's outcome and the slot whose name matched (R72, R73). -/
def State.lookupOutcome (s : State) (name : List Byte) (check : Word) (passwordLong : Bool) :
    LookupOutcome × Option SlotNo :=
  match s.slotNamed name with
  | none => (.reject .noSuchName, none)
  | some i =>
    match s.slot i with
    | none => (.reject .noSuchName, none)
    | some a => (s.judgeAccount a check passwordLong, some i)

/-- An account with one more failure counted, and locked when the count reaches the threshold (R74). -/
def Account.countFailure (a : Account) (threshold minutes : Nat) : Account :=
  let failures := min (a.failures + 1) 15
  { a with
    failures := failures
    lock := if threshold ≤ failures ∧ a.lock = .none then .timed minutes else a.lock }

/-- The directory's own effects of an outcome: only BAD_PASSWORD has one (R73 step 1). -/
def State.lookupOwnEffect (s : State) (o : LookupOutcome) (i : Option SlotNo) : State :=
  match o, i with
  | .reject .badPassword, some i =>
    s.updSlot i fun a => a.countFailure s.plan.lockThreshold s.plan.lockTime
  | _, _ => s

/-! ## Outcomes applied to a context (R54 to R58) -/

/-- A context sent back to the name prompt (R56). -/
def Context.rejected (c : Context) : Context :=
  { c with name := [], nameLong := false, password := [], passwordLong := false,
           attempts := c.attempts + 1, lookup := .none }

/-- A rejection applied to context k of line n: back to NAME on the first two attempts, and a clear with
ATTEMPTS on the third (R56, R57). -/
def State.rejectAttempt (s : State) (k : CtxNo) (n : LineNo) (reason : RejectReason) : State :=
  if (s.ctx k).attempts < 2 then
    let s := s.updCtx k Context.rejected
    let s := s.updLine n fun r => { r with state := .name }
    s.give (.rejected n reason)
  else s.clearDialogue n .attempts (some .rude)

/-- A line record accepted: SIGNED_ON, activity latch clear, idle minutes 0, no context (R1, R55). -/
def LineRecord.accepted (r : LineRecord) : LineRecord :=
  { r with state := .signedOn, activity := false, idle := 0, context := none }

/-- An acceptance applied to context k of line n, signing on slot i (R55). -/
def State.acceptCall (s : State) (k : CtxNo) (n : LineNo) (i : SlotNo) : State :=
  let s := s.updSlot i fun a => { a with openSessions := a.openSessions + 1, failures := 0 }
  let s := s.updLine n LineRecord.accepted
  let s := s.updCtx k Context.freed
  let s := s.openSession n i
  let s := s.give (.signed n (s.line n).speed)
  let s := s.withdrawPrompts n
  s.evaluateGrants

/-- R54's test: the context is held by the line, the line is in CHECKING, and the lookup is IN_SERVICE. -/
def State.completionApplies (s : State) (k : CtxNo) (n : LineNo) : Bool :=
  (s.ctx k).holder == some n && (s.line n).state == .checking && (s.ctx k).lookup == .inService

/-- The lookup state of context k once its lookup's outcome is applied: NONE (R52). -/
def State.endLookup (s : State) (k : CtxNo) : State := s.updCtx k fun c => { c with lookup := .none }

/-- The Sign-On Engine's part of a completion: the outcome applied where R54 holds, and nothing where the
context was released (R58). -/
def State.applyOutcome (s : State) (k : CtxNo) (n : LineNo) (o : LookupOutcome)
    (i : Option SlotNo) : State :=
  if s.completionApplies k n then
    let s := s.endLookup k
    match o, i with
    | .accept, some i => s.acceptCall k n i
    | .accept, none => s
    | .reject reason, _ => s.rejectAttempt k n reason
  else s

/-- The completion of the lookup in service (R73). It arises only while one is in service. -/
def State.lookupCompleted (s : State) : State :=
  match s.directory.inService with
  | some (.lookup name check long k n) =>
    let s := { s with directory := { s.directory with inService := none } }
    let o := s.lookupOutcome name check long
    let s := s.lookupOwnEffect o.1 o.2
    let s := s.applyOutcome k n o.1 o.2
    s.startService
  | some (.commit _) => s
  | none => s

/-- LOOKUP_COMPLETION (R73). -/
def execLookupCompletion (s : State) : Host.Outcome State Fault Refusal :=
  event State.lookupCompleted s

/-! ## The census (R80 to R82) -/

/-- A slot meets a census condition (R80). -/
def meetsCondition (c : CensusCondition) (a : Option Account) : Bool :=
  match a with
  | none => false
  | some a =>
    match c with
    | .alarm => a.alarm
    | .locked => a.lock.refuses
    | .active => decide (0 < a.openSessions)
    | .any => true

/-- Starts a census (R81). -/
def State.startCensus (s : State) (w : Word) : State :=
  { s with directory := { s.directory with
      census := { active := true, condition := censusCondition w, cursor := 0 } } }

/-- CENSUS_START (R81). -/
def execCensusStart (w : Word) (s : State) : Host.Outcome State Fault Refusal :=
  event (fun s => s.startCensus w) s

/-- Replaces the census. -/
def State.setCensus (s : State) (c : Census) : State :=
  { s with directory := { s.directory with census := c } }

/-- The lowest slot at or above the cursor that meets the condition (R82). -/
def State.censusNext (s : State) : Option SlotNo :=
  s.findSlot fun j a =>
    decide (s.directory.census.cursor ≤ j) && meetsCondition s.directory.census.condition a

/-- A processor read of the census cell: the word returned and the census moved on (R82). -/
def State.readCensus (s : State) : Word × State :=
  let c := s.directory.census
  if c.active then
    match s.censusNext with
    | some i =>
      match s.slot i with
      | some a => (censusWord i a, s.setCensus { c with cursor := i.val + 1 })
      | none => (0#16, s)
    | none => (0#16, s.setCensus { c with active := false })
  else (0#16, s)

/-- CENSUS_READ (R82). -/
def execCensusRead (s : State) : Host.Outcome State Fault Refusal :=
  readEvent State.readCensus s

end Sys2Proof.Machine
end

