-- ==== Sys2Proof/Machine/Loading.lean ====
section
/-!
DEFINITION. Directory loading (05_directory_loading.md): staging writes, commit writes, and the checks
and effects of a commit's completion.
-/

namespace Sys2Proof.Machine

/-- Replaces the staging buffer. -/
def State.setStaging (s : State) (g : Staging) : State :=
  { s with directory := { s.directory with staging := g } }

/-! ## Staging writes (R86) -/

/-- A word captured at an offset: it joins the fill set and the end offset follows (R86). -/
def Staged.capture (r : Staged) (i : Fin 16) (w : Word) : Staged :=
  { words := r.words.set i w, fill := r.fill.set i true, last := if r.last < i then i else r.last }

/-- A staging write as the buffer takes it in FRESH and FILLING (R86). -/
def Staging.write (g : Staging) (i : Fin 16) (w : Word) : Staging :=
  match g.state with
  | .fresh => { g with state := .filling, record := Staged.empty.capture i w }
  | .filling => { g with record := g.record.capture i w }
  | .pending => g

/-- A processor write to staging word i: it reaches memory in every state of the buffer, and while the
buffer is PENDING it is not captured and the latch records it (R86). -/
def State.writeStaging (s : State) (i : Fin 16) (w : Word) : State :=
  let s := s.writeArea (stagingOffset i) w
  if s.directory.staging.state = .pending then s.refuse .processor (stagingOffset i)
  else s.setStaging (s.directory.staging.write i w)

/-- STAGING_WRITE (R86). -/
def execStagingWrite (i : Fin 16) (w : Word) (s : State) : Host.Outcome State Fault Refusal :=
  event (fun s => s.writeStaging i w) s

/-! ## Commit writes (R89) -/

/-- A commit write judged by the buffer: refused while PENDING, MISMATCH, GAPS, or accepted (R89). -/
def State.writeCommit (s : State) (w : Word) : State :=
  let g := s.directory.staging
  if g.state = .pending then s.refuse .processor commitOffset
  else if commitEnd w ≠ g.record.last ∨ slotField w ≠ g.record.target then
    (s.setStaging { g with outcome := .mismatch }).give (.adminCommit .mismatch)
  else if !g.record.gapless ∨ g.record.last < 10 then
    (s.setStaging { g with outcome := .gaps }).give (.adminCommit .gaps)
  else
    (s.setStaging { g with state := .pending, outcome := .pending }).submit (.commit g.record)

/-- COMMIT_WRITE (R89). -/
def execCommitWrite (w : Word) (s : State) : Host.Outcome State Fault Refusal :=
  event (fun s => s.writeCommit w) s

/-! ## The outcome of a commit (R90, R91) -/

/-- Some slot other than i holds the name (R90 check 5). -/
def State.nameTaken (s : State) (i : SlotNo) (name : List Byte) : Bool :=
  (s.findSlot fun j a => j != i.val && match a with
    | some a => a.name == name
    | none => false).isSome

/-- The fields a LOAD writes pass R91. -/
def Staged.loadFieldsOk (r : Staged) : Bool :=
  r.nameOk && r.cls.isSome && r.maxSessionsOk && r.number != 0#16

/-- The fields an ALTER's flags name pass R91. -/
def Staged.alterFieldsOk (r : Staged) : Bool :=
  (!r.flagName || r.nameOk) && (!r.flagClass || r.cls.isSome)
    && (!r.flagMaxSess || r.maxSessionsOk) && (!r.flagAccount || r.number != 0#16)

/-- The open sessions of a slot, 0 for an EMPTY one. -/
def openIn (a : Option Account) : Nat :=
  match a with
  | some a => a.openSessions
  | none => 0

/-- A commit's outcome by R90's checks, in order. -/
def State.commitOutcome (s : State) (r : Staged) : CommitOutcome :=
  let a := s.slot r.target
  match r.op with
  | none => .badField
  | some .load =>
    if 0 < openIn a then .slotBusy
    else if !r.loadFieldsOk then .badField
    else if s.nameTaken r.target r.name then .nameTaken
    else .done
  | some .alter =>
    if a.isNone then .slotEmpty
    else if !r.alterFieldsOk then .badField
    else if r.flagName && s.nameTaken r.target r.name then .nameTaken
    else if r.flagMaxSess && decide (r.maxSessions < openIn a) then .slotBusy
    else .done
  | some .erase =>
    if a.isNone then .slotEmpty
    else if 0 < openIn a then .slotBusy
    else .done

/-! ## The effects of a DONE commit (R92 to R95) -/

/-- The alarm flag of a loaded budget (R79). -/
def State.alarmFor (s : State) (budget : Nat) : Bool := decide (budget ≤ s.plan.warnThreshold)

/-- The account a LOAD writes (R92). -/
def State.loadedAccount (s : State) (r : Staged) : Account :=
  { name := r.name, number := r.number, cls := r.cls.getD .student, check := r.check,
    budget := r.budget, basis := r.budget, units := 0, alarm := s.alarmFor r.budget,
    maxSessions := r.maxSessions, openSessions := 0, failures := 0, lock := .none }

/-- One field changed where its flag is set. -/
def Account.when (a : Account) (flag : Bool) (f : Account → Account) : Account :=
  if flag then f a else a

/-- An account altered by its record's flags, in R93's order. -/
def State.alteredAccount (s : State) (r : Staged) (a : Account) : Account :=
  let a := a.when r.flagName fun a => { a with name := r.name }
  let a := a.when r.flagCheck fun a => { a with check := r.check }
  let a := a.when r.flagClass fun a => { a with cls := r.cls.getD a.cls }
  let a := a.when r.flagBudget fun a =>
    { a with budget := r.budget, basis := r.budget, units := 0, alarm := s.alarmFor r.budget }
  let a := a.when r.flagMaxSess fun a => { a with maxSessions := r.maxSessions }
  let a := a.when r.flagAccount fun a => { a with number := r.number }
  let a := a.when r.flagUnlock fun a => { a with lock := .none, failures := 0 }
  a.when r.flagLock fun a => { a with lock := .held }

/-- NO_BUDGET is due on the sessions of an account: not OPERATOR and budget 0 (R94). -/
def Account.budgetGone (a : Account) : Bool := a.cls != .operator && a.budget == 0

/-- BAND_BARRED is due on the sessions of an account: not OPERATOR and the current band not in its
class's hold set (R94). -/
def State.bandBars (s : State) (a : Account) : Bool := a.cls != .operator && !s.mayHold a.cls

/-- A reason put in line n's set or taken out of it, the end of an empty grace left for later (R94). -/
def State.putReason (s : State) (n : LineNo) (g : GraceReason) (due : Bool) : State :=
  if due then s.addReason n g else s.dropReason n g

/-- Line n's grace brought into line with the altered account (R94): NO_BUDGET is judged, with CLASS
flagged BAND_BARRED too, and a grace left with no reason ends. Two points are the model's: NO_BUDGET
comes first, so that BAND_BARRED's WARNING is the last given where both are new (DESIGN CHOICE,
log 28), and the set is found empty or not only after both, so that a grace whose one reason gives way
to the other keeps its seconds (DEDUCED, log 29). -/
def State.alignGrace (s : State) (n : LineNo) (r : Staged) (a : Account) : State :=
  let s := s.putReason n .noBudget a.budgetGone
  let s := if r.flagClass then s.putReason n .bandBarred (s.bandBars a) else s
  s.endEmptyGrace n

/-- The graces of slot i's open sessions brought into line with the altered account, in order of line
number, where CLASS or BUDGET is flagged (R94). -/
def State.alignGraces (s : State) (r : Staged) (i : SlotNo) : State :=
  if r.flagClass || r.flagBudget then
    s.forSessions fun n x s =>
      match s.slot i with
      | none => s
      | some a => if x.slot = i then s.alignGrace n r a else s
  else s

/-- The effects of a DONE commit on its target slot and that slot's sessions (R92 to R95). -/
def State.applyCommit (s : State) (r : Staged) : State :=
  match r.op with
  | none => s
  | some .load => s.setSlot r.target (some (s.loadedAccount r))
  | some .alter =>
    let s := s.updSlot r.target (s.alteredAccount r)
    s.alignGraces r r.target
  | some .erase => s.setSlot r.target none

/-- The staging buffer after a completion (R96 steps 1 and 2): FRESH after DONE and FILLING after a
refusal, contents kept; after a bus reset that found the commit in service, emptied and FRESH (R99). -/
def Staging.completed (g : Staging) (o : CommitOutcome) : Staging :=
  if g.resetInService then
    { state := .fresh, record := Staged.empty, outcome := o, resetInService := false }
  else
    { g with state := if o = .done then .fresh else .filling, outcome := o }

/-- The completion of the commit in service (R90, R96). It arises only while one is in service. -/
def State.commitCompleted (s : State) : State :=
  match s.directory.inService with
  | some (.commit r) =>
    let s := { s with directory := { s.directory with inService := none } }
    let o := s.commitOutcome r
    let s := if o = .done then s.applyCommit r else s
    let s := s.setStaging (s.directory.staging.completed o)
    let s := s.give (.adminCommit o)
    s.startService
  | some (.lookup _ _ _ _ _) => s
  | none => s

/-- COMMIT_COMPLETION (R90). -/
def execCommitCompletion (s : State) : Host.Outcome State Fault Refusal :=
  event State.commitCompleted s

end Sys2Proof.Machine
end

