-- ==== Sys2Proof/Machine/Meter.lean ====
section
/-!
DEFINITION. The Meter Unit's time and tables (06_tariffs_and_the_meter.md): ticks, clock, bands,
charging, the idle check, and the writes of its cells.
-/

namespace Sys2Proof.Machine

/-! ## Short ticks (R3, R42, R100) -/

/-- A running timer lowered by one; one that has run out stays at 0, its expiry due. -/
def tickTimer (t : Option Nat) : Option Nat := t.map (· - 1)

/-- A line record's timers lowered by a short tick (R3). -/
def LineRecord.tick (r : LineRecord) : LineRecord :=
  { r with
    doubt := tickTimer r.doubt
    ringGone := tickTimer r.ringGone
    answer := tickTimer r.answer
    forced := r.forced.map fun f => { f with politeLeft := tickTimer f.politeLeft }
    clearing := r.clearing.map fun c => { c with timeLeft := c.timeLeft - 1 } }

/-- A held context's sign-on time lowered by a short tick (R42). -/
def Context.tick (c : Context) : Context :=
  if c.holder.isSome then { c with signOnTime := tickTimer c.signOnTime } else c

/-- The short tick counted: the one that brings the count to 100 makes a second tick due (R100). -/
def Meter.countShortTick (m : Meter) : Meter :=
  if m.shortTicks + 1 = Config.ticksPerSecond then
    { m with shortTicks := 0, secondsDue := m.secondsDue + 1 }
  else { m with shortTicks := m.shortTicks + 1 }

/-- A short tick; while the divisor is absent the timebase gives none (R101). -/
def State.shortTicked (s : State) : State :=
  if s.meter.divisor.isSome then
    { s with lines := s.lines.map LineRecord.tick, contexts := s.contexts.map Context.tick,
             meter := s.meter.countShortTick }
  else s

/-- SHORT_TICK (R100). -/
def execShortTick (s : State) : Host.Outcome State Fault Refusal :=
  event State.shortTicked s

/-! ## Charging (R110 to R112, R114) -/

/-- A counter raised by one, staying at its greatest value (R108). -/
def countUp (n limit : Nat) : Nat := min (n + 1) limit

/-- R112's threshold judgement on slot i: the alarm flag is set and every session of the slot is warned. -/
def State.judgeThreshold (s : State) (i : SlotNo) : State :=
  match s.slot i with
  | none => s
  | some a =>
    if a.budget = s.plan.warnThreshold ∧ a.alarm = false then
      (s.updSlot i fun a => { a with alarm := true }).forSessions fun m x s =>
        if x.slot = i then
          (s.give (.warning m .budgetLow)).updSession m fun x => { x with budgetWarned := true }
        else s
    else s

/-- R112's exhaustion judgement on slot i: NO_BUDGET joins the grace of every session of the slot. -/
def State.judgeExhaustion (s : State) (i : SlotNo) : State :=
  match s.slot i with
  | none => s
  | some a =>
    if a.budget = 0 then
      s.forSessions fun m x s => if x.slot = i then s.addReason m .noBudget else s
    else s

/-- An account charged one unit of its budget (R78). -/
def Account.charged (a : Account) : Account :=
  { a with budget := a.budget - 1, units := a.units + 1 }

/-- A session's counter for a band raised by one unit (R111). -/
def Session.countUnit (x : Session) (b : BandNo) : Session :=
  { x with units := x.units.set b (countUp x.units[b] Config.maxCount) }

/-- One unit charged to slot i for line n's session: from the budget when it is above 0, else counted as
overrun (R111). -/
def State.chargeUnit (s : State) (n : LineNo) (i : SlotNo) : State :=
  match s.slot i with
  | none => s
  | some a =>
    if 0 < a.budget then
      let s := s.setSlot i (some a.charged)
      let s := s.updSession n fun x => x.countUnit s.meter.band
      let s := s.judgeThreshold i
      s.judgeExhaustion i
    else s.updSession n fun x => { x with overrun := countUp x.overrun Config.maxCount }

/-- Step 3 of R110: the charge counter rises, and one at or above the rate charges a unit (R111). -/
def State.countCharge (s : State) (n : LineNo) (x : Session) (rate : Nat) : State :=
  if rate ≤ x.charge + 1 then
    (s.updSession n fun x => { x with charge := 0 }).chargeUnit n x.slot
  else s.updSession n fun x => { x with charge := x.charge + 1 }

/-- Step 4 of R110: line n's grace loses a second and expires at 0 (R114). -/
def State.runGrace (s : State) (n : LineNo) : State :=
  (s.updSession n fun x =>
    { x with grace := x.grace.map fun c => { c with left := c.left - 1 } }).graceExpired n

/-- The visit of line n's session at a second tick; `running` says whether its grace was present at
the start of the tick (R110). -/
def State.visitSecond (s : State) (running : Bool) (n : LineNo) (x : Session) : State :=
  let s := s.updSession n fun x => { x with seconds := countUp x.seconds Config.maxSeconds }
  match s.classOf x.slot with
  | none => s
  | some .operator => s
  | some _ =>
    let rate := s.rate s.meter.band (s.line n).speed
    if rate = 0 then s
    else
      let s := s.countCharge n x rate
      if running then s.runGrace n else s

/-- The second tick counted: the one that brings the count to 60 makes a minute tick due (R100). -/
def Meter.countSecondTick (m : Meter) : Meter :=
  if m.secondTicks + 1 = 60 then
    { m with secondTicks := 0, secondsDue := m.secondsDue - 1, minutesDue := m.minutesDue + 1 }
  else { m with secondTicks := m.secondTicks + 1, secondsDue := m.secondsDue - 1 }

/-- A second tick: every session visited in line order (R110). It arises only when one is due. -/
def State.secondTicked (s : State) : State :=
  if 0 < s.meter.secondsDue then
    State.forSessions { s with meter := s.meter.countSecondTick } fun n x t =>
      t.visitSecond (s.gracePresent n) n x
  else s

/-- SECOND_TICK (R110). -/
def execSecondTick (s : State) : Host.Outcome State Fault Refusal :=
  event State.secondTicked s

/-! ## Clock and bands (R102 to R105, R115) -/

/-- The clock advanced by one minute (R102). -/
def Meter.advanceClock (m : Meter) : Meter :=
  if m.minute + 1 < 1440 then { m with minute := m.minute + 1 }
  else { m with minute := 0, weekday := if m.weekday + 1 < 7 then m.weekday + 1 else 0,
                day := m.day + 1 }

/-- The start minute of a band (R104). -/
def Meter.bandStart (m : Meter) (b : BandNo) : Nat := m.bandStarts[b]

/-- Of the bands that meet `p`, the one with the greatest start, the higher number winning among equal
starts (R105). -/
def Meter.greatestStart (m : Meter) (p : BandNo → Bool) : Option BandNo :=
  (List.finRange 4).foldl
    (fun best b =>
      if p b then
        match best with
        | none => some b
        | some c => if m.bandStart c ≤ m.bandStart b then some b else some c
      else best) none

/-- The band the clock and the tables give (R105). -/
def Meter.evaluateBand (m : Meter) : BandNo :=
  if m.weekend.getLsbD m.weekday then 3
  else
    match m.greatestStart (fun b => m.bandStart b ≤ m.minute) with
    | some b => b
    | none => (m.greatestStart (fun _ => true)).getD 3

/-- The band re-evaluated; a band change is applied to every session in line order (R105, R115). -/
def State.reevaluateBand (s : State) : State :=
  let b := s.meter.evaluateBand
  if b = s.meter.band then s
  else
    State.forSessions { s with meter := { s.meter with band := b } } fun n x s =>
      s.judgeBand n x.slot

/-- The idle minutes after a minute tick: 0 when the activity latch is set, else one more, stopping at
120 (R116). -/
def LineRecord.idleAfter (r : LineRecord) : Nat := if r.activity then 0 else countUp r.idle 120

/-- The idle check of line n's session (R116). -/
def State.idleCheck (s : State) (n : LineNo) (x : Session) : State :=
  match s.classOf x.slot with
  | none => s
  | some .operator => s
  | some _ =>
    let s := s.updLine n fun r => { r with idle := r.idleAfter, activity := false }
    let s := if (s.line n).idle = s.plan.idleWarn then
        (s.give (.warning n .idle)).updSession n fun x => { x with idleWarned := true }
      else s
    s.idleExpired n

/-- A lock counted down by a minute tick: one that reaches 0 stands there until `lockEnded` (R76). -/
def Account.tickLock (a : Account) : Account :=
  match a.lock with
  | .timed m => { a with lock := .timed (m - 1) }
  | .none | .held => a

/-- The end of a TIMED lock whose minutes left are 0: lock NONE and failure count 0 (R76). -/
def Account.endLock (a : Account) : Account :=
  if a.lock = .timed 0 then { a with lock := .none, failures := 0 } else a

/-- Every TIMED lock counted down, and ended at 0 (R76). -/
def State.tickLocks (s : State) : State :=
  { s with directory := { s.directory with
      slots := s.directory.slots.map fun a => a.map fun a => a.tickLock.endLock } }

/-- LOCK_END (R76). It arises only where a TIMED lock stands at 0 minutes; the minute tick that brings
one there takes it in its own event (log 5). -/
def execLockEnd (i : SlotNo) (s : State) : Host.Outcome State Fault Refusal :=
  event (fun s => s.updSlot i Account.endLock) s

/-- A minute tick: the clock, the band, the idle checks, and the locks (R76, R102). It arises only when
one is due. -/
def State.minuteTicked (s : State) : State :=
  if 0 < s.meter.minutesDue then
    let s := { s with meter := { s.meter.advanceClock with minutesDue := s.meter.minutesDue - 1 } }
    let s := s.reevaluateBand
    let s := s.forSessions fun n x s => s.idleCheck n x
    s.tickLocks
  else s

/-- MINUTE_TICK (R102). -/
def execMinuteTick (s : State) : Host.Outcome State Fault Refusal :=
  event State.minuteTicked s

/-! ## The cells (R103, R104, R106, R107) -/

/-- A processor write to the clock minute cell: both fields set when in range, else refused (R103). -/
def State.writeClockMinute (s : State) (w : Word) : State :=
  if clockMinuteField w < 1440 ∧ clockWeekdayField w < 7 then
    State.reevaluateBand { s with meter := { s.meter with
      minute := clockMinuteField w, weekday := clockWeekdayField w } }
  else s.refuse .processor clockMinuteOffset

/-- CLOCK_MINUTE_WRITE (R103). -/
def execClockMinuteWrite (w : Word) (s : State) : Host.Outcome State Fault Refusal :=
  event (fun s => s.writeClockMinute w) s

/-- A processor write to the clock day cell (R103). -/
def State.writeClockDay (s : State) (w : Word) : State :=
  State.reevaluateBand { s with meter := { s.meter with day := w } }

/-- CLOCK_DAY_WRITE (R103). -/
def execClockDayWrite (w : Word) (s : State) : Host.Outcome State Fault Refusal :=
  event (fun s => s.writeClockDay w) s

/-- A processor write to a band start cell: a start above 1439 is refused (R104). -/
def State.writeBandStart (s : State) (b : BandNo) (w : Word) : State :=
  if field w 0 11 < 1440 then
    { s with meter := { s.meter with bandStarts := s.meter.bandStarts.set b (field w 0 11) } }
  else s.refuse .processor (bandStartOffset b)

/-- BAND_START_WRITE (R104). -/
def execBandStartWrite (b : BandNo) (w : Word) (s : State) : Host.Outcome State Fault Refusal :=
  event (fun s => s.writeBandStart b w) s

/-- A processor write to the weekend cell: every set is accepted (R104). -/
def State.writeWeekend (s : State) (w : Word) : State :=
  { s with meter := { s.meter with weekend := w.extractLsb' 0 7 } }

/-- WEEKEND_WRITE (R104). -/
def execWeekendWrite (w : Word) (s : State) : Host.Outcome State Fault Refusal :=
  event (fun s => s.writeWeekend w) s

/-- A processor write to a tariff cell: a rate above 3600 is refused (R106). -/
def State.writeTariff (s : State) (b : BandNo) (v : SpeedNo) (w : Word) : State :=
  if field w 0 12 ≤ 3600 then
    { s with meter := { s.meter with
        tariffs := s.meter.tariffs.set ((4 * b.val + v.val) % 16) (field w 0 12)
          (Nat.mod_lt _ (by decide)) } }
  else s.refuse .processor (tariffOffset b v)

/-- TARIFF_WRITE (R106). -/
def execTariffWrite (b : BandNo) (v : SpeedNo) (w : Word) (s : State) :
    Host.Outcome State Fault Refusal :=
  event (fun s => s.writeTariff b v w) s

/-- A processor write to a class permit cell. STUDENT, STAFF and GUEST judge the sessions of their class
at once; the OPERATOR cell is held and not consulted (R107). -/
def State.writePermit (s : State) (c : AccountClass) (w : Word) : State :=
  let s := { s with meter := { s.meter with
    permits := s.meter.permits.set (quarter (classCode c)) (permitField w) } }
  s.forSessions fun n x s => if s.classOf x.slot = some c then s.judgeBand n x.slot else s

/-- PERMIT_WRITE (R107). -/
def execPermitWrite (c : AccountClass) (w : Word) (s : State) : Host.Outcome State Fault Refusal :=
  event (fun s => s.writePermit c w) s

end Sys2Proof.Machine
end

