-- ==== Sys2Proof/Machine/Planning.lean ====
section
/-!
DEFINITION. The plan (10_the_plan_and_start_up.md): the plan start and the plan words.
-/

namespace Sys2Proof.Machine

/-- Replaces the plan. -/
def State.setPlan (s : State) (p : Plan) : State := { s with plan := p }

/-! ## The plan start (R166) -/

/-- The line states that let a plan start be accepted: OFF, PASSIVE, IDLE and RINGING (R166). -/
def LineState.allowsPlanStart (x : LineState) : Bool :=
  match x with
  | .off | .passive | .idle | .ringing => true
  | .answering | .name | .password | .checking | .signedOn | .clearing => false

/-- R166's three conditions. -/
def State.planStartAllowed (s : State) : Bool :=
  (List.finRange 64).all (fun n => (s.line n).state.allowsPlanStart)
    && s.journal.queue.isEmpty && s.bus.owner != .posting

/-- A line record at an accepted plan start: a RINGING line returns to IDLE with its ring-gone timer
removed and no missed call counted (R39, R166 step 1). -/
def LineRecord.planStarted (r : LineRecord) : LineRecord :=
  if r.state = .ringing then { r with ringGone := none }.toMode .watched else r

/-- A processor write to the plan start cell (R166). -/
def State.writePlanStart (s : State) (w : Word) : State :=
  if s.planStartAllowed then
    { s with
      lines := s.lines.map LineRecord.planStarted
      answerQueue := []
      fill := planFill w
      journal := { s.journal with capacity := 0, head := 0, tail := 0, visible := 0 }
      attention := Attention.reset
      plan := { s.plan with state := .planning 2 } }
  else s.give (.adminPlan .refused)

/-- PLAN_START (R166). -/
def execPlanStart (w : Word) (s : State) : Host.Outcome State Fault Refusal :=
  event (fun s => s.writePlanStart w) s

/-! ## The plan words (R167, R173) -/

/-- `v` lies in the range `lo` to `hi`. -/
def within (v lo hi : Nat) : Bool := lo ≤ v && v ≤ hi

/-- Plan word k lies in its range (R167). -/
def planWordOk (k : Nat) (w : Word) : Bool :=
  match k with
  | 2 => within w.toNat 1000 65535
  | 3 => within (field w 0 3) 0 4 && within (field w 8 6) 0 63
  | 4 => within (field w 0 8) 1 255
  | 5 => within (field w 0 8) 5 255
  | 6 => within (field w 0 8) 5 60 && within (field w 8 8) 4 30
  | 7 => within w.toNat 30 600
  | 8 => within (field w 0 4) 1 15 && within (field w 4 12) 1 1440
  | 9 => within (field w 0 8) 1 120 && within (field w 8 8) 1 120
      && decide (field w 0 8 < field w 8 8)
  | 10 => within (field w 0 6) 1 60 && within (field w 6 10) 10 600
  | 11 => true
  | _ => false

/-- Plan words 4 to 11 applied to the plan (R167, R173). -/
def Plan.applyWord (p : Plan) (k : Nat) (w : Word) : Plan :=
  match k with
  | 4 => { p with windowLength := field w 0 8 }
  | 5 => { p with carrierHold := field w 0 8 }
  | 6 => { p with answerTime := field w 0 8, ringGoneTime := field w 8 8 }
  | 7 => { p with signOnLimit := w.toNat }
  | 8 => { p with lockThreshold := field w 0 4, lockTime := field w 4 12 }
  | 9 => { p with idleWarn := field w 0 8, idleLimit := field w 8 8 }
  | 10 => { p with politeLimit := field w 0 6, graceSeconds := field w 6 10 }
  | 11 => { p with warnThreshold := w.toNat }
  | _ => p

/-- A plan word in range applied where its value is used: word 2 sets the divisor (R101), word 3 the
capacity and the low mark, with the grant evaluation of the rise in credit, which finds the plan not
PLANNED (R123, R127), and the others the plan's own values. -/
def State.applyPlanWord (s : State) (k : Nat) (w : Word) : State :=
  match k with
  | 2 => { s with meter := { s.meter with divisor := some w.toNat } }
  | 3 => State.evaluateGrants { s with journal := { s.journal with
      capacity := 64 <<< field w 0 3, lowMark := field w 8 6 } }
  | k => s.setPlan (s.plan.applyWord k w)

/-- A processor write to the plan word cell (R167): word k in PLANNING, applied in range, and breaking
the plan out of it; refused and latched in the other plan states. -/
def State.writePlanWord (s : State) (w : Word) : State :=
  match s.plan.state with
  | .planning k =>
    if planWordOk k w then
      let s := s.applyPlanWord k w
      if k = 11 then
        let s := s.setPlan { s.plan with state := .planned }
        let s := s.give (.adminPlan .done)
        s.evaluateGrants
      else s.setPlan { s.plan with state := .planning (k + 1) }
    else (s.setPlan { s.plan with state := .unplanned }).give (.adminPlan .broken)
  | .unplanned | .planned => s.refuse .processor planWordOffset

/-- PLAN_WORD (R167). -/
def execPlanWord (w : Word) (s : State) : Host.Outcome State Fault Refusal :=
  event (fun s => s.writePlanWord w) s

end Sys2Proof.Machine
end

