-- ==== Sys2Proof/Machine/Posting.lean ====
section
/-!
DEFINITION. The Journal Poster's windows and postings (07_the_accounting_journal.md): the sweep marker,
the start test, the effects of a completion on the journal, time outs and tail writes. What the
memory side does next at a completion is in Machine/Cycles.lean.
-/

namespace Sys2Proof.Machine

/-- Replaces the window: absent is CLOSED. -/
def State.setWindow (s : State) (w : Option Window) : State :=
  { s with journal := { s.journal with window := w } }

/-- Gives the memory side to a new owner, which no bus reset has met yet. -/
def State.setOwner (s : State) (o : Owner) : State :=
  { s with bus := { s.bus with owner := o, restarted := false } }

/-! ## Windows (R130, R131, R134) -/

/-- A scanner write to the sweep marker cell: it reaches memory, ends an OPEN window, and opens a new one
when a record is queued (R130). -/
def State.sweepMarked (s : State) (w : Word) : State :=
  let s := s.writeArea sweepOffset w
  if s.journal.queue.isEmpty then s.setWindow none
  else s.setWindow (some { left := s.plan.windowLength * 10, eligible := s.journal.queue.length,
                            ending := false })

/-- SWEEP_MARKER (R130). -/
def execSweepMarker (w : Word) (s : State) : Host.Outcome State Fault Refusal :=
  event (fun s => s.sweepMarked w) s

/-- The window's time out (R131, R134). It arises only at time remaining 0 while no record is being
posted. -/
def State.windowTimedOut (s : State) : State :=
  match s.journal.window with
  | some w => if w.left = 0 ∧ s.bus.owner ≠ .posting then s.setWindow none else s
  | none => s

/-- WINDOW_TIME_OUT (R131). -/
def execWindowTimeOut (s : State) : Host.Outcome State Fault Refusal :=
  event State.windowTimedOut s

/-- One microsecond of real time on an OPEN window. The 4 µs of a posting are taken off at its completion,
so none passes here while one is in progress (R131, log 11). -/
def State.microsecond (s : State) : State :=
  match s.journal.window with
  | some w =>
    if s.pins.porn ∧ s.bus.owner ≠ .posting then s.setWindow (some { w with left := w.left - 1 })
    else s
  | none => s

/-! ## Postings (R132, R133) -/

/-- R132's start test. -/
def State.startTest (s : State) : Bool :=
  match s.journal.window with
  | some w => decide (0 < w.eligible) && decide (Config.postingReserve ≤ w.left)
      && s.bus.owner == .free && s.bus.waiting.isEmpty
  | none => false

/-- The posting that passes the start test takes the memory side (R132). -/
def State.startPosting (s : State) : State := if s.startTest then s.setOwner .posting else s

/-- POSTING_START (R132). -/
def execPostingStart (s : State) : Host.Outcome State Fault Refusal :=
  event State.startPosting s

/-- The first `k` words of a record written at position `p` of the ring, word 1 first (R124, R133). -/
def State.writeRecord (s : State) (p : Nat) (words : List Word) (k : Nat) : State :=
  (words.zipIdx.take k).foldl (fun s wi => s.writeArea (journalOffset p wi.2) wi.1) s

/-- A position of the ring advanced by one, returning to 0 after C - 1 (R133). -/
def advance (p capacity : Nat) : Nat := if p + 1 < capacity then p + 1 else 0

/-- Steps 1 to 5 of a completion (R133): the record is in memory and leaves the queue, its line's
record-pending flag clears, the head and the visible count move on, JOURNAL(RECORDS) is given and
grants are evaluated. -/
def State.recordPosted (s : State) : State :=
  match s.journal.queue with
  | [] => s
  | r :: rest =>
    let s := s.writeRecord s.journal.head r.words.toList 16
    let s := { s with journal := { s.journal with queue := rest } }
    let s := s.updLine r.line fun r => { r with recordPending := false }
    let s := { s with journal := { s.journal with
      head := advance s.journal.head s.journal.capacity, visible := s.journal.visible + 1 } }
    let s := s.give .journalRecords
    s.evaluateGrants

/-- The window at a completion: 4 µs and one eligible record fewer, and closed when that was the last
one or a scanner cycle arrived during the posting (R133 steps 3 and 6, R134). -/
def State.windowAfterPosting (s : State) : State :=
  match s.journal.window with
  | none => s
  | some w =>
    let w := { w with left := w.left - Config.postingMicros, eligible := w.eligible - 1 }
    if w.eligible = 0 ∨ w.ending then s.setWindow none else s.setWindow (some w)

/-! ## Tail writes (R138) -/

/-- The advance a new tail index asks for: the index less the tail modulo C, and C when it equals the
tail of a full ring (R138). -/
def Journal.advanceTo (j : Journal) (i : Nat) : Nat :=
  if i = j.tail ∧ j.full then j.capacity else (i + j.capacity - j.tail) % j.capacity

/-- A processor write to the journal tail cell (R138). -/
def State.writeTail (s : State) (w : Word) : State :=
  let i := tailIndex w
  let adv := s.journal.advanceTo i
  if i < s.journal.capacity ∧ adv ≤ s.journal.visible then
    if adv = 0 then s
    else
      State.evaluateGrants { s with journal := { s.journal with
        tail := i, visible := s.journal.visible - adv } }
  else s.refuse .processor tailOffset

/-- TAIL_WRITE (R138). -/
def execTailWrite (w : Word) (s : State) : Host.Outcome State Fault Refusal :=
  event (fun s => s.writeTail w) s

end Sys2Proof.Machine
end

