-- ==== Sys2Proof/Machine/SignOn.lean ====
section
/-!
DEFINITION. The Sign-On Engine (03_the_sign_on_dialogue.md): what a receive entry does to a dialogue,
what it is altered to on its way to memory, and the sign-on timer's expiry.
-/

namespace Sys2Proof.Machine

/-- A name or password buffer with a character typed into it: stored while fewer than 12 are held, else
the overlong flag is set (R44, R47). -/
def typeChar (buffer : List Byte) (long : Bool) (c : Byte) : List Byte × Bool :=
  if buffer.length < 12 then (buffer ++ [c], long) else (buffer, true)

/-- The editing and printable characters' effect on a buffer and its overlong flag: `c` is the low seven
bits and `stored` what a printable character is stored as. CR is judged elsewhere; every other
character is ignored (R44, R47). -/
def editBuffer (buffer : List Byte) (long : Bool) (c stored : Byte) : List Byte × Bool :=
  if printable c then typeChar buffer long stored
  else if c = 0x08#8 ∨ c = 0x7F#8 then (buffer.dropLast, long)
  else if c = 0x15#8 then ([], false)
  else (buffer, long)

/-- A context with its name buffer edited by a character (R44). -/
def Context.editName (c : Context) (ch : Byte) : Context :=
  let e := editBuffer c.name c.nameLong ch (foldCase ch)
  { c with name := e.1, nameLong := e.2 }

/-- A context with its password buffer edited by a character (R47). -/
def Context.editPassword (c : Context) (ch : Byte) : Context :=
  let e := editBuffer c.password c.passwordLong ch ch
  { c with password := e.1, passwordLong := e.2 }

/-- A CR in NAME (R45). -/
def State.endName (s : State) (k : CtxNo) (n : LineNo) : State :=
  if (s.ctx k).name.isEmpty then s
  else if (s.ctx k).nameLong then s.rejectAttempt k n .nameTooLong
  else
    let s := s.updCtx k fun c => { c with password := [], passwordLong := false }
    let s := s.updLine n fun r => { r with state := .password }
    s.give (.promptPassword n)

/-- A context whose password has been submitted: the lookup QUEUED and the password emptied (R48). -/
def Context.submitted (c : Context) : Context :=
  { c with lookup := .queued, password := [], passwordLong := false }

/-- A CR in PASSWORD (R48). -/
def State.endPassword (s : State) (k : CtxNo) (n : LineNo) : State :=
  let c := s.ctx k
  if c.password.isEmpty then s
  else
    let q := Request.lookup c.name (checkWord c.password) c.passwordLong k n
    let s := s.updCtx k Context.submitted
    let s := s.updLine n fun r => { r with state := .checking }
    s.submit q

/-- A context restarted by a BREAK: both buffers and both overlong flags emptied (R49). -/
def Context.restarted (c : Context) : Context :=
  { c with name := [], nameLong := false, password := [], passwordLong := false }

/-- A BREAK in NAME or PASSWORD (R49). -/
def State.restartDialogue (s : State) (k : CtxNo) (n : LineNo) : State :=
  let s := s.updCtx k Context.restarted
  let s := s.updLine n fun r => { r with state := .name }
  s.give (.promptRestart n)

/-- A marked entry that is not a BREAK, in NAME or PASSWORD: the noise count rises, and at 8 the dialogue
is cleared with NOISY (R50). -/
def State.countNoise (s : State) (k : CtxNo) (n : LineNo) : State :=
  let s := s.updCtx k fun c => { c with noise := c.noise + 1 }
  if 8 ≤ (s.ctx k).noise then s.clearDialogue n .noisy (some .rude) else s

/-- What an entry does to the dialogue of line n, whose context is k, in the state the entry finds: a
BREAK first, then marks, then the character (R43). -/
def State.dialogueEntry (s : State) (k : CtxNo) (n : LineNo) (w : Word) : State :=
  match (s.line n).state with
  | .name =>
    if entryIsBreak w then s.restartDialogue k n
    else if entryMarks w != 0#3 then s.countNoise k n
    else if entryChar7 w = 0x0D#8 then s.endName k n
    else s.updCtx k fun c => c.editName (entryChar7 w)
  | .password =>
    if entryIsBreak w then s.restartDialogue k n
    else if entryMarks w != 0#3 then s.countNoise k n
    else if entryChar7 w = 0x0D#8 then s.endPassword k n
    else s.updCtx k fun c => c.editPassword (entryChar7 w)
  | .answering | .checking | .off | .passive | .idle | .ringing | .signedOn | .clearing => s

/-- The word that reaches memory for an entry written for line n (R46). -/
def State.entryInMemory (s : State) (n : LineNo) (w : Word) : Word :=
  if (s.line n).state = .password ∧ mustMask w then maskedEntry s.fill w else w

/-- The marks of an entry added to line n's sticky marks (R9). -/
def State.addMarks (s : State) (n : LineNo) (w : Word) : State :=
  s.updLine n fun r => { r with sticky := r.sticky ||| (entryMarks w).setWidth 5 }

/-- An entry on a SIGNED_ON line: its marks join the session's fault summary and the activity latch is
set (R9). -/
def State.sessionEntry (s : State) (n : LineNo) (w : Word) : State :=
  let s := s.updLine n fun r => { r with activity := true }
  s.updSession n fun x => { x with faults := x.faults ||| (entryMarks w).setWidth 4 }

/-- A scanner write of entry i of line n's receive ring (R9). -/
def State.receive (s : State) (n : LineNo) (i : Fin 32) (w : Word) : State :=
  let s := s.writeArea (receiveOffset n i) (s.entryInMemory n w)
  match (s.line n).state with
  | .passive => s
  | .off | .idle | .ringing | .clearing => s.addMarks n w
  | .signedOn => (s.addMarks n w).sessionEntry n w
  | .answering | .name | .password | .checking =>
    let s := s.addMarks n w
    match (s.line n).context with
    | some k => s.dialogueEntry k n w
    | none => s

/-- RECEIVE_ENTRY (R9). -/
def execReceiveEntry (n : LineNo) (i : Fin 32) (w : Word) (s : State) :
    Host.Outcome State Fault Refusal :=
  event (fun s => s.receive n i w) s

/-- The sign-on time's expiry (R42). It arises only on a held context whose time has run out. -/
def State.signOnExpired (s : State) (k : CtxNo) : State :=
  match (s.ctx k).holder with
  | some n =>
    if (s.ctx k).signOnTime = some 0 then s.clearDialogue n .signOnTimeout (some .rude) else s
  | none => s

/-- SIGN_ON_TIME_EXPIRY (R42). -/
def execSignOnTimeExpiry (k : CtxNo) (s : State) : Host.Outcome State Fault Refusal :=
  event (fun s => s.signOnExpired k) s

end Sys2Proof.Machine
end

