-- ==== Sys2Proof/Machine/Cycles.lean ====
section
/-!
DEFINITION. The Bus Passage Unit (09_cycles_through_the_part.md): the classification of a cycle at its
taking and its hand-over to the owning block, the memory-side arbiter, holds, and the refused-write
latch's read.
-/

namespace Sys2Proof.Machine

/-! ## The refused-write latch (R161, R162) -/

/-- A processor read of the refused-write latch cell: the word returned and the latch cleared (R162). -/
def State.readLatch (s : State) : Word × State :=
  (s.bus.latch.word, { s with bus := { s.bus with latch := Latch.clear } })

/-- LATCH_READ (R162). -/
def execLatchRead (s : State) : Host.Outcome State Fault Refusal :=
  readEvent State.readLatch s

/-- A write by master m at an offset that has no take meaning for m (R157, R161). -/
def State.writeRefused (s : State) (m : Master) (o : Offset) : State :=
  if refusesWrite m (region o) then s.refuse m o else s

/-- WRITE_REFUSED (R161). -/
def execWriteRefused (m : Master) (o : Offset) (s : State) : Host.Outcome State Fault Refusal :=
  event (fun s => s.writeRefused m o) s

/-! ## Classification and hand-over (R157, R158) -/

/-- A cycle's taking: the action it receives, the word it returns if it is a read, and the part and the
memory array after it. -/
structure Taken where
  action : Action
  data : Word
  state : State

/-- A read that passes to memory at a line-area offset. -/
def passRead (s : State) (o : Offset) : Taken :=
  { action := .pass, data := s.readArea o, state := s }

/-- An overlay read whose answer changes nothing. -/
def overlayRead (s : State) (w : Word) : Taken := { action := .overlay, data := w, state := s }

/-- An overlay read whose answer changes the block's state. -/
def overlayWith (r : Word × State) : Taken := { action := .overlay, data := r.1, state := r.2 }

/-- A processor read at a line-area offset (R157's table, first column). -/
def State.processorRead (s : State) (o : Offset) : Taken :=
  match region o with
  | .attention => overlayWith s.readAttention
  | .mask => overlayRead s s.attention.maskWord
  | .mode => overlayRead s s.attention.modeWord
  | .partStatus => overlayRead s s.partStatusWord
  | .head => overlayRead s s.journal.headWord
  | .tail => overlayRead s s.journal.tailWord
  | .latch => overlayWith s.readLatch
  | .census => overlayWith s.readCensus
  | .receiptTarget => overlayRead s s.directory.staging.targetWord
  | .receiptState => overlayRead s s.directory.staging.stateWord
  | .receiptCheck => overlayRead s s.directory.staging.checkCell
  | .clockMinute => overlayRead s s.meter.minuteWord
  | .clockDay => overlayRead s s.meter.day
  | .credit => overlayRead s s.creditWord
  | .tariff b v => overlayRead s (BitVec.ofNat 16 (s.rate b v))
  | .bandStart b => overlayRead s (BitVec.ofNat 16 (s.meter.bandStart b))
  | .weekend => overlayRead s (s.meter.weekend.setWidth 16)
  | .permit c => overlayRead s (s.permit c).word
  | .setting n => overlayRead s (s.settingWord n)
  | .sessionStatus n 0 => overlayWith (s.readStatus0 n)
  | .sessionStatus n k => overlayRead s (s.statusWord n k)
  | .commandWord _ | .statusWord _ | .planStart | .planWord | .commit | .sweepMarker | .staging _
  | .receiveRing _ _ | .receiveIndex _ | .transmitRing _ | .transmitPut _ | .transmitTake _
  | .journal | .plain => passRead s o

/-- A scanner read at a line-area offset: only a command word is ever overlaid (R11, R157). -/
def State.scannerRead (s : State) (o : Offset) : Taken :=
  match region o with
  | .commandWord n =>
    if (s.line n).state.leavesCycles ∨ (s.line n).commandRead.1.isNone then passRead s o
    else overlayWith (s.readCommand n)
  | .statusWord _ | .attention | .mask | .mode | .planStart | .planWord | .partStatus | .head
  | .tail | .latch | .census | .commit | .receiptTarget | .receiptState | .receiptCheck
  | .clockMinute | .clockDay | .sweepMarker | .credit | .tariff _ _ | .bandStart _ | .weekend
  | .permit _ | .setting _ | .staging _ | .sessionStatus _ _ | .receiveRing _ _ | .receiveIndex _
  | .transmitRing _ | .transmitPut _ | .transmitTake _ | .journal | .plain => passRead s o

/-- A write given an action, with the state after it; a write returns no word. -/
def written (a : Action) (s : State) : Taken := { action := a, data := 0#16, state := s }

/-- A taken write: its block's effect, which may be a refusal of its content. -/
def takenWrite (s : State) : Taken := written .take s

/-- The action of a processor write to line n's command word: it passes for a line in OFF or PASSIVE
(R2, R13, R157). -/
def State.processorCommandAction (s : State) (n : LineNo) : Action :=
  if (s.line n).state.leavesCycles then .pass else .watch

/-- A processor write at a line-area offset (R157's table, second column). -/
def State.processorWrite (s : State) (o : Offset) (w : Word) : Taken :=
  match region o with
  | .commandWord n => written (s.processorCommandAction n) (s.processorCommand n w)
  | .attention => takenWrite (s.writeAttention w)
  | .mask => takenWrite (s.writeMask w)
  | .mode => takenWrite (s.writeMode w)
  | .planStart => takenWrite (s.writePlanStart w)
  | .planWord => takenWrite (s.writePlanWord w)
  | .tail => takenWrite (s.writeTail w)
  | .census => takenWrite (s.startCensus w)
  | .commit => takenWrite (s.writeCommit w)
  | .clockMinute => takenWrite (s.writeClockMinute w)
  | .clockDay => takenWrite (s.writeClockDay w)
  | .tariff b v => takenWrite (s.writeTariff b v w)
  | .bandStart b => takenWrite (s.writeBandStart b w)
  | .weekend => takenWrite (s.writeWeekend w)
  | .permit c => takenWrite (s.writePermit c w)
  | .setting n => takenWrite (s.writeSetting n w)
  | .staging i => written .watch (s.writeStaging i w)
  | .transmitPut n => written .watch (s.writePut n w)
  | .statusWord _ | .sweepMarker | .receiveRing _ _ | .receiveIndex _ | .transmitRing _
  | .transmitTake _ | .plain => written .pass (s.writeArea o w)
  | .partStatus | .head | .latch | .receiptTarget | .receiptState | .receiptCheck | .credit
  | .sessionStatus _ _ | .journal => written .refuse (s.writeRefused .processor o)

/-- The action of a scanner write to line n's receive ring: altered in PASSWORD when R46 requires, not
told to the block in PASSIVE, else watched (R2, R46, R157). -/
def State.receiveAction (s : State) (n : LineNo) (w : Word) : Action :=
  match (s.line n).state with
  | .passive => .pass
  | .password => if mustMask w then .alter else .watch
  | .off | .idle | .ringing | .answering | .name | .checking | .signedOn | .clearing => .watch

/-- The action of a scanner write to line n's status word (R2, R4). -/
def State.statusAction (s : State) (n : LineNo) : Action :=
  if (s.line n).state = .passive then .pass else .watch

/-- The action of a scanner write to line n's command word (R2, R12). -/
def State.commandAction (s : State) (n : LineNo) : Action :=
  if (s.line n).state.leavesCycles then .pass
  else if (s.awaitedBy n).isSome then .take else .watch

/-- A scanner write at a line-area offset (R157's table, fourth column). -/
def State.scannerWrite (s : State) (o : Offset) (w : Word) : Taken :=
  match region o with
  | .commandWord n => written (s.commandAction n) (s.acknowledge n w)
  | .statusWord n => written (s.statusAction n) (s.statusWritten n w)
  | .sweepMarker => written .watch (s.sweepMarked w)
  | .receiveRing n i => written (s.receiveAction n w) (s.receive n i w)
  | .transmitTake n => written .watch (s.writeTake n w)
  | .staging _ | .receiveIndex _ | .transmitRing _ | .transmitPut _ | .plain =>
    written .pass (s.writeArea o w)
  | .attention | .mask | .mode | .planStart | .planWord | .partStatus | .head | .tail | .latch
  | .census | .commit | .receiptTarget | .receiptState | .receiptCheck | .clockMinute | .clockDay
  | .credit | .tariff _ _ | .bandStart _ | .weekend | .permit _ | .setting _ | .sessionStatus _ _
  | .journal => written .refuse (s.writeRefused .scanner o)

/-- A cycle inside the line area, handed to the owning block (R157). -/
def State.takeInside (s : State) (c : Cycle) (o : Offset) : Taken :=
  match c.write, c.master with
  | false, .processor => s.processorRead o
  | false, .scanner => s.scannerRead o
  | true, .processor => s.processorWrite o c.data
  | true, .scanner => s.scannerWrite o c.data

/-- A cycle outside the line area passes to memory untouched (R155). -/
def State.takeOutside (s : State) (c : Cycle) : Taken :=
  if c.write then written .pass (s.writeMem c.addr c.data)
  else { action := .pass, data := s.readMem c.addr, state := s }

/-- A cycle's taking: classified and acted on against the part as it stands (R156, R157). -/
def State.classify (s : State) (c : Cycle) : Taken :=
  match s.areaOffset c.addr with
  | some o => s.takeInside c o
  | none => s.takeOutside c

/-- A cycle given the memory side: it is taken, whole, and becomes the owner (R158, R159). -/
def State.takeCycle (s : State) (c : Cycle) : State :=
  (s.classify c).state.setOwner (.cycle c (s.classify c).action (s.classify c).data)

/-! ## The memory-side arbiter (R159, R160) -/

/-- The cycle that owns the memory side is one of master m, which still makes it: a bus reset restarts
the masters, and a cycle taken before it is the part's to complete (R164, log 14). -/
def BusUnit.inCycleOf (b : BusUnit) (m : Master) : Bool :=
  match b.owner with
  | .cycle c _ _ => c.master == m && !b.restarted
  | .free | .posting => false

/-- Master m has a cycle in progress or waiting (each master makes one cycle at a time, R156). -/
def State.busyWith (s : State) (m : Master) : Bool :=
  s.bus.inCycleOf m || s.bus.waiting.any fun c => c.master == m

/-- The window at the arrival of a cycle: a scanner cycle closes it, at once while no record is being
posted, and else at the completion of the posting (R134). -/
def State.windowAtArrival (s : State) (c : Cycle) : Option Window :=
  if c.master = .scanner then
    if s.bus.owner = .posting then s.journal.window.map fun w => { w with ending := true } else none
  else s.journal.window

/-- R134 at the arrival of a cycle. -/
def State.closeWindowAt (s : State) (c : Cycle) : State := s.setWindow (s.windowAtArrival c)

/-- A cycle joins the tail of the waiting list. -/
def State.enqueueCycle (s : State) (c : Cycle) : State :=
  { s with bus := { s.bus with waiting := s.bus.waiting ++ [c] } }

/-- A master cycle arrives: taken at once at a FREE memory side with nothing waiting, else it waits
(R159). A master that already has a cycle makes no other, and nothing happens (R156, log 12). -/
def State.arrive (s : State) (c : Cycle) : State :=
  if s.busyWith c.master then s
  else
    let s := s.setBrdy c.master false
    let s := s.closeWindowAt c
    if s.bus.owner = .free ∧ s.bus.waiting = [] then s.takeCycle c else s.enqueueCycle c

/-- The memory side becomes FREE: the head of the waiting list is taken, and with nothing waiting the
start test is made (R159). -/
def State.releaseMemorySide (s : State) : State :=
  let s := s.setOwner .free
  match s.bus.waiting with
  | c :: rest => State.takeCycle { s with bus := { s.bus with waiting := rest } } c
  | [] => s.startPosting

/-- A master's cycle answered at its end: BRDY is raised for it and a read's word is on BD (R177). -/
def State.answerCycle (s : State) (c : Cycle) (data : Word) : State :=
  let s := s.setBrdy c.master true
  if c.write then s else s.setBd data

/-- The end of the cycle that owns the memory side: its master is answered, unless a bus reset has
restarted it, and the memory side goes on (R159, R164, R177, log 14). -/
def State.endCycle (s : State) : State :=
  match s.bus.owner with
  | .cycle c _ data =>
    let s := if s.bus.restarted then s else s.answerCycle c data
    s.releaseMemorySide
  | .free | .posting => s

/-- A cycle presented while PORN is low waits on BREQ, one for each master (R156). -/
def State.present (s : State) (c : Cycle) : State :=
  if s.pins.presented.any (fun d => d.master == c.master) then s
  else
    let s := s.setBrdy c.master false
    { s with pins := { s.pins with presented := s.pins.presented ++ [c] } }

/-- MASTER_CYCLE_ARRIVAL (R159): while PORN is low the cycle only waits (R156, R177). -/
def execMasterCycleArrival (c : Cycle) (s : State) : Host.Outcome State Fault Refusal :=
  if s.pins.porn then event (fun s => s.arrive c) s else .next (s.present c)

/-- MASTER_CYCLE_END (R159). It arises only while a master cycle owns the memory side. -/
def execMasterCycleEnd (s : State) : Host.Outcome State Fault Refusal :=
  event State.endCycle s

/-- The completion of the posting in progress (R133, R159). It arises only while a posting owns the
memory side. -/
def State.postingCompleted (s : State) : State :=
  if s.bus.owner = .posting then s.recordPosted.windowAfterPosting.releaseMemorySide else s

/-- POSTING_COMPLETION (R133). -/
def execPostingCompletion (s : State) : Host.Outcome State Fault Refusal :=
  event State.postingCompleted s

end Sys2Proof.Machine
end

