-- ==== Sys2Proof/Machine/Resets.lean ====
section
/-!
DEFINITION. Power-on reset, its release, and bus reset (R155, R164, R177, and each chapter's reset
values).
-/

namespace Sys2Proof.Machine

/-! ## Power-on reset (R23, R39, R64, R84, R99, R121, R140, R154, R164, R165) -/

/-- The memory array at a power-on reset: as it stands, but for a posting in progress, whose record is
left part written; how much of it is the free value (R140, log 4). -/
def State.tornMemory (s : State) : State :=
  match s.bus.owner, s.journal.queue with
  | .posting, r :: _ =>
    { s.writeRecord s.journal.head r.words.toList (Config.tornWords s.freeUses % 17) with
      freeUses := s.freeUses + 1 }
  | _, _ => s

/-- PORN asserted: every block is held at its power-on values; the memory array and the waiting commands
are outside the part. Cycles presented on BREQ since PORN fell go on waiting (R156). -/
def State.poweredOn (s : State) : State :=
  let t := s.tornMemory
  { State.reset with
    pins := { Pins.reset with porn := false, presented := if s.pins.porn then [] else s.pins.presented }
    bus := { BusUnit.reset with strap := s.bus.strap }
    mem := t.mem
    freeUses := t.freeUses
    pending := s.pending }

/-- POWER_ON_RESET (R164). -/
def execPowerOnReset (s : State) : Host.Outcome State Fault Refusal :=
  .next s.poweredOn

/-- The cycles presented while PORN was low that their masters still present. -/
def State.stillPresented (s : State) (procPresents scanPresents : Bool) : List Cycle :=
  s.pins.presented.filter fun c => match c.master with
    | .processor => procPresents
    | .scanner => scanPresents

/-- The rise of PORN: the straps are sampled, the part takes cycles from here on, and the cycles still
presented arrive in the order they were presented (R155, R156). -/
def State.released (s : State) (straps : BitVec 3) (procPresents scanPresents : Bool) : State :=
  (s.stillPresented procPresents scanPresents).foldl State.arrive
    { s with bus := { s.bus with strap := straps }, pins := { s.pins with porn := true, presented := [] } }

/-- POWER_ON_RESET_RELEASE (R155). It arises only while PORN is low. -/
def execPowerOnResetRelease (straps : BitVec 3) (procPresents scanPresents : Bool) (s : State) :
    Host.Outcome State Fault Refusal :=
  .next (if s.pins.porn then s else (s.released straps procPresents scanPresents).refreshAttn)

/-! ## Bus reset (R23, R39, R64, R71, R84, R99, R121, R140, R154, R164, R177) -/

/-- The request is a commit. -/
def Request.isCommit (q : Request) : Bool :=
  match q with
  | .commit _ => true
  | .lookup _ _ _ _ _ => false

/-- A commit is in service. -/
def Directory.commitInService (d : Directory) : Bool :=
  match d.inService with
  | some q => q.isCommit
  | none => false

/-- The directory at a bus reset: slots, waiting lookups and the request in service are kept, a waiting
commit is withdrawn, the census is INACTIVE with its cursor at 0, and the staging buffer is emptied,
unless a commit is in service, which keeps it PENDING until its completion (R71, R84, R99). -/
def Directory.busReset (d : Directory) : Directory :=
  { d with
    queue := d.queue.filter fun q => !q.isCommit
    staging := if d.commitInService then { d.staging with resetInService := true } else Staging.reset
    census := { d.census with active := false, cursor := 0 } }

/-- A master cycle owns the memory side. -/
def Owner.isCycle (o : Owner) : Bool :=
  match o with
  | .cycle _ _ _ => true
  | .free | .posting => false

/-- The bus unit at a bus reset: the latch cleared and waiting cycles discarded untaken; a cycle already
taken is left to the part, and its master is restarted (R164, log 14). -/
def BusUnit.busReset (b : BusUnit) : BusUnit :=
  { b with latch := Latch.clear, waiting := [], restarted := b.owner.isCycle }

/-- The fall of BRSTN, one event: the Attention Controller returns to its reset values, and every other
block keeps its state but for what the directory and the bus unit give up (R154, R177). -/
def State.busResetTaken (s : State) : State :=
  { s with attention := Attention.reset, directory := s.directory.busReset, bus := s.bus.busReset }

/-- BUS_RESET (R177). -/
def execBusReset (s : State) : Host.Outcome State Fault Refusal :=
  event State.busResetTaken s

end Sys2Proof.Machine
end

