-- ==== Sys2Proof/Machine/Dispatch.lean ====
section
/-!
DEFINITION. The meaning of each command, one arm for each row of opcode_table.json, in its order.
-/

namespace Sys2Proof.Machine

def exec (i : Instr) (s : State) : Host.Outcome State Fault Refusal :=
  match i with
  | .statusWrite n w => Sys2Proof.Machine.execStatusWrite n w s
  | .receiveEntry n j w => Sys2Proof.Machine.execReceiveEntry n j w s
  | .commandWordRead n => Sys2Proof.Machine.execCommandWordRead n s
  | .acknowledge n w => Sys2Proof.Machine.execAcknowledge n w s
  | .processorHangUp n => Sys2Proof.Machine.execProcessorHangUp n s
  | .transmitPutWrite n w => Sys2Proof.Machine.execTransmitPutWrite n w s
  | .transmitTakeWrite n w => Sys2Proof.Machine.execTransmitTakeWrite n w s
  | .carrierDoubtExpiry n => Sys2Proof.Machine.execCarrierDoubtExpiry n s
  | .politeTimeExpiry n => Sys2Proof.Machine.execPoliteTimeExpiry n s
  | .clearingTimeExpiry n => Sys2Proof.Machine.execClearingTimeExpiry n s
  | .modeLoad n w => Sys2Proof.Machine.execModeLoad n w s
  | .hangRequest n w => Sys2Proof.Machine.execHangRequest n w s
  | .sessionStatusRead n => Sys2Proof.Machine.execSessionStatusRead n s
  | .ringGoneExpiry n => Sys2Proof.Machine.execRingGoneExpiry n s
  | .answerTimerExpiry n => Sys2Proof.Machine.execAnswerTimerExpiry n s
  | .signOnTimeExpiry k => Sys2Proof.Machine.execSignOnTimeExpiry k s
  | .requestServiceStart => Sys2Proof.Machine.execRequestServiceStart s
  | .lookupCompletion => Sys2Proof.Machine.execLookupCompletion s
  | .lockEnd j => Sys2Proof.Machine.execLockEnd j s
  | .censusStart w => Sys2Proof.Machine.execCensusStart w s
  | .censusRead => Sys2Proof.Machine.execCensusRead s
  | .stagingWrite j w => Sys2Proof.Machine.execStagingWrite j w s
  | .commitWrite w => Sys2Proof.Machine.execCommitWrite w s
  | .commitCompletion => Sys2Proof.Machine.execCommitCompletion s
  | .shortTick => Sys2Proof.Machine.execShortTick s
  | .secondTick => Sys2Proof.Machine.execSecondTick s
  | .graceExpiry n => Sys2Proof.Machine.execGraceExpiry n s
  | .minuteTick => Sys2Proof.Machine.execMinuteTick s
  | .idleLimit n => Sys2Proof.Machine.execIdleLimit n s
  | .clockMinuteWrite w => Sys2Proof.Machine.execClockMinuteWrite w s
  | .clockDayWrite w => Sys2Proof.Machine.execClockDayWrite w s
  | .bandStartWrite b w => Sys2Proof.Machine.execBandStartWrite b w s
  | .weekendWrite w => Sys2Proof.Machine.execWeekendWrite w s
  | .tariffWrite b v w => Sys2Proof.Machine.execTariffWrite b v w s
  | .permitWrite c w => Sys2Proof.Machine.execPermitWrite c w s
  | .sweepMarker w => Sys2Proof.Machine.execSweepMarker w s
  | .postingStart => Sys2Proof.Machine.execPostingStart s
  | .postingCompletion => Sys2Proof.Machine.execPostingCompletion s
  | .windowTimeOut => Sys2Proof.Machine.execWindowTimeOut s
  | .tailWrite w => Sys2Proof.Machine.execTailWrite w s
  | .poll => Sys2Proof.Machine.execPoll s
  | .nonSpecificDone => Sys2Proof.Machine.execNonSpecificDone s
  | .specificDone k => Sys2Proof.Machine.execSpecificDone k s
  | .rotateOnNonSpecificDone => Sys2Proof.Machine.execRotateOnNonSpecificDone s
  | .rotateOnSpecificDone k => Sys2Proof.Machine.execRotateOnSpecificDone k s
  | .setLowest k => Sys2Proof.Machine.execSetLowest k s
  | .maskWrite w => Sys2Proof.Machine.execMaskWrite w s
  | .modeWrite w => Sys2Proof.Machine.execModeWrite w s
  | .masterCycleArrival c => Sys2Proof.Machine.execMasterCycleArrival c s
  | .masterCycleEnd => Sys2Proof.Machine.execMasterCycleEnd s
  | .writeRefused m o => Sys2Proof.Machine.execWriteRefused m o s
  | .latchRead => Sys2Proof.Machine.execLatchRead s
  | .planStart w => Sys2Proof.Machine.execPlanStart w s
  | .planWord w => Sys2Proof.Machine.execPlanWord w s
  | .powerOnReset => Sys2Proof.Machine.execPowerOnReset s
  | .powerOnResetRelease straps procPresents scanPresents => Sys2Proof.Machine.execPowerOnResetRelease straps procPresents scanPresents s
  | .busReset => Sys2Proof.Machine.execBusReset s

end Sys2Proof.Machine
end

