-- ==== Sys2Proof/Safety.lean ====
section
/-!
DEFINITION. What the statements are made of: the blocks of State for the frame of a command, the
completion of a command, and the invariants the spec's rules lay down.
-/

namespace Sys2Proof.Machine

/-! ## Completion -/

/-- The command answers a next state, and that state meets `post`. -/
def Completes (i : Instr) (s : State) (post : State → Prop) : Prop :=
  ∃ t, exec i s = .next t ∧ post t

/-! ## Frames -/

/-- The blocks of State that a frame names. ATTN is in none of them: it follows the Attention
Controller in every event (R146) and has statements of its own. -/
inductive Block where
  /-- The 64 line records (R1). -/
  | lines
  /-- The answer queue (R24). -/
  | answerQueue
  /-- The eight sign-on contexts (R28, R40). -/
  | contexts
  /-- The fill character (R41). -/
  | fill
  /-- The 2048 directory slots (R65). -/
  | slots
  /-- The directory request queue and the request in service (R69, R70). -/
  | requests
  /-- The staging buffer (R85). -/
  | staging
  /-- The census (R80). -/
  | census
  /-- The divisor, the tick counts and the ticks due (R100, R101). -/
  | timebase
  /-- Minute of day, weekday and day count (R102). -/
  | clock
  /-- The tariff, band start, weekend and permit cells (R104, R106, R107). -/
  | tables
  /-- The current band (R105). -/
  | band
  /-- The session records (R108). -/
  | sessions
  /-- Capacity, head, tail, visible count and low mark (R122). -/
  | ring
  /-- The posting queue and the sequence number (R122, R126). -/
  | posting
  /-- The posting window (R130). -/
  | window
  /-- The eight attention queues (R142). -/
  | queues
  /-- The in-service entries (R142). -/
  | inService
  /-- The mask set, L and the three modes (R144, R151, R152). -/
  | priority
  /-- The area base (R155). -/
  | strap
  /-- The refused-write latch (R161). -/
  | latch
  /-- The owner of the memory side, whether a bus reset has restarted its master, and the waiting list
  (R159, R164). -/
  | memorySide
  /-- The plan state and the plan's values (R165). -/
  | plan
  /-- BD0 to BD15 (R177). -/
  | bd
  /-- BRDY (R177). -/
  | brdy
  /-- PORN and the cycles presented while it is low (R156, R177). -/
  | porn
  /-- The memory array. -/
  | mem
  /-- The uses of the free value (log 4). -/
  | freeUses
  /-- The commands waiting. -/
  | pending
  deriving DecidableEq, Repr

/-- The block is the same in two states. -/
def Block.same (b : Block) (s t : State) : Prop :=
  match b with
  | .lines => t.lines = s.lines
  | .answerQueue => t.answerQueue = s.answerQueue
  | .contexts => t.contexts = s.contexts
  | .fill => t.fill = s.fill
  | .slots => t.directory.slots = s.directory.slots
  | .requests => t.directory.queue = s.directory.queue ∧ t.directory.inService = s.directory.inService
  | .staging => t.directory.staging = s.directory.staging
  | .census => t.directory.census = s.directory.census
  | .timebase =>
    t.meter.divisor = s.meter.divisor ∧ t.meter.shortTicks = s.meter.shortTicks
      ∧ t.meter.secondTicks = s.meter.secondTicks ∧ t.meter.secondsDue = s.meter.secondsDue
      ∧ t.meter.minutesDue = s.meter.minutesDue
  | .clock =>
    t.meter.minute = s.meter.minute ∧ t.meter.weekday = s.meter.weekday ∧ t.meter.day = s.meter.day
  | .tables =>
    t.meter.tariffs = s.meter.tariffs ∧ t.meter.bandStarts = s.meter.bandStarts
      ∧ t.meter.weekend = s.meter.weekend ∧ t.meter.permits = s.meter.permits
  | .band => t.meter.band = s.meter.band
  | .sessions => t.meter.sessions = s.meter.sessions
  | .ring =>
    t.journal.capacity = s.journal.capacity ∧ t.journal.head = s.journal.head
      ∧ t.journal.tail = s.journal.tail ∧ t.journal.visible = s.journal.visible
      ∧ t.journal.lowMark = s.journal.lowMark
  | .posting => t.journal.queue = s.journal.queue ∧ t.journal.sequence = s.journal.sequence
  | .window => t.journal.window = s.journal.window
  | .queues => t.attention.queues = s.attention.queues
  | .inService => t.attention.inService = s.attention.inService
  | .priority =>
    t.attention.mask = s.attention.mask ∧ t.attention.lowest = s.attention.lowest
      ∧ t.attention.autoDone = s.attention.autoDone
      ∧ t.attention.autoRotate = s.attention.autoRotate
      ∧ t.attention.specialMask = s.attention.specialMask
  | .strap => t.bus.strap = s.bus.strap
  | .latch => t.bus.latch = s.bus.latch
  | .memorySide =>
    t.bus.owner = s.bus.owner ∧ t.bus.restarted = s.bus.restarted ∧ t.bus.waiting = s.bus.waiting
  | .plan => t.plan = s.plan
  | .bd => t.pins.bd = s.pins.bd
  | .brdy =>
    t.pins.brdyProcessor = s.pins.brdyProcessor ∧ t.pins.brdyScanner = s.pins.brdyScanner
  | .porn => t.pins.porn = s.pins.porn ∧ t.pins.presented = s.pins.presented
  | .mem => t.mem = s.mem
  | .freeUses => t.freeUses = s.freeUses
  | .pending => t.pending = s.pending

/-- The second state differs from the first in the listed blocks only (and in ATTN). -/
def SameBut (bs : List Block) (s t : State) : Prop := ∀ b, b ∉ bs → b.same s t

/-- Every line record but line n's is unchanged. -/
def OtherLines (n : LineNo) (s t : State) : Prop := ∀ m, m ≠ n → t.line m = s.line m

/-- Every context but context k is unchanged. -/
def OtherContexts (k : CtxNo) (s t : State) : Prop := ∀ j, j ≠ k → t.ctx j = s.ctx j

/-- Every slot but slot i is unchanged. -/
def OtherSlots (i : SlotNo) (s t : State) : Prop := ∀ j, j ≠ i → t.slot j = s.slot j

/-- Every session record but line n's is unchanged. -/
def OtherSessions (n : LineNo) (s t : State) : Prop := ∀ m, m ≠ n → t.session m = s.session m

/-- Every attention queue but class k's is unchanged. -/
def OtherQueues (k : ClassNo) (s t : State) : Prop :=
  ∀ j, j ≠ k → t.attention.queue j = s.attention.queue j

/-- Every word of memory but the one at address a reads as before. -/
def OtherWords (a : Addr) (s t : State) : Prop := ∀ b, b ≠ a → t.readMem b = s.readMem b

/-- Exactly this entry was given to the Attention Controller (R142): it is in its class's queue, in place
of an entry of the same subject or else at the tail, and the other queues are unchanged. -/
def GivenOnly (e : Notice) (s t : State) : Prop :=
  t.attention.queue e.cls = queueNotice (s.attention.queue e.cls) e ∧ OtherQueues e.cls s t

/-- Nothing on the answer queue, so that no grant evaluation answers a line (R30). -/
def NoOneRings (s : State) : Prop := s.answerQueue = []

/-! ## What an event brings about beside its own effect -/

/-- The grant evaluation that an event makes on the state `u` it leads to (R30), with no line ringing or
with any number: the lines, the contexts, the answer queue and the JOURNAL queue of `t` are those of the
evaluation made on `u`, so that the oldest eligible lines get the lowest FREE contexts in turn (R29,
R30). Hence in `t` no further grant is allowed; every context is as in `u`, or was FREE there and is
held, fresh, by a line that was on the answer queue; every line is as in `u`, or left the queue for such
a context, its order kept for the rest (R31); and only JOURNAL(CREDIT_LOW) can have been given (R128). -/
def GrantsMade (u t : State) : Prop :=
  (t.lines = u.evaluateGrants.lines ∧ t.contexts = u.evaluateGrants.contexts
    ∧ t.answerQueue = u.evaluateGrants.answerQueue
    ∧ t.attention.queue 6 = u.evaluateGrants.attention.queue 6)
  ∧ t.nextGrant = none
  ∧ t.answerQueue = u.answerQueue.filter (fun m => t.answerQueue.contains m)
  ∧ (∀ k, t.ctx k = u.ctx k
      ∨ (u.ctx k).holder = none
        ∧ ∃ m ∈ u.answerQueue, m ∉ t.answerQueue ∧ t.ctx k = Context.fresh (some m))
  ∧ (∀ m, t.line m = u.line m ∧ (m ∈ u.answerQueue → m ∈ t.answerQueue)
      ∨ m ∈ u.answerQueue ∧ m ∉ t.answerQueue
        ∧ ∃ k, (u.ctx k).holder = none ∧ t.ctx k = Context.fresh (some m)
          ∧ t.line m = (u.line m).granted k u.plan.answerTime)
  ∧ (t.attention.queue 6 = u.attention.queue 6
      ∨ t.attention.queue 6 = queueNotice (u.attention.queue 6) .journalCreditLow)

/-- The end of a request's service (R70, R73, R96): the request at the head of the queue, if one waits,
is in service, and a lookup's context, still held and QUEUED, is IN_SERVICE; nothing else changes. -/
def NextServed (u t : State) : Prop :=
  t.directory.queue = u.directory.queue.tail
  ∧ t.directory.inService = u.directory.queue.head?
  ∧ (∀ k, t.ctx k = match u.directory.queue.head? with
      | some (.lookup _ _ _ j n) =>
        if j = k ∧ (u.ctx k).holder = some n ∧ (u.line n).state = .checking
            ∧ (u.ctx k).lookup = .queued then { u.ctx k with lookup := .inService }
        else u.ctx k
      | some (.commit _) => u.ctx k
      | none => u.ctx k)
  ∧ SameBut [.contexts, .requests] u t

/-! ## The end of a call -/

/-- The blocks a dialogue clear and the grants it causes can change (R36). -/
abbrev clearBlocks : List Block := [.lines, .answerQueue, .contexts, .queues, .requests]

/-- The blocks a session close can change (R118). -/
abbrev closeBlocks : List Block := [.lines, .slots, .sessions, .posting, .queues]

/-- The forced command slot after the HANG_UP its cause names, if any, was requested (R10); with none
named, an undelivered ANSWER is withdrawn (R13). -/
def slotAfter (limit : Nat) (slot : Option Forced) (hang : Option Manner) : Option Forced :=
  match hang with
  | some m => requestHangUp limit slot m
  | none => withdrawAnswer slot

/-- A line record entering CLEARING with this forced command slot (R15). -/
def LineRecord.cleared (r : LineRecord) (slot : Option Forced) : LineRecord :=
  { r with
    state := .clearing
    forced := slot
    clearing := some { ackSeen := false, timeLeft := 3000 + politeAddition slot, modeAfter := r.mode }
    doubt := none
    answer := none
    ringGone := none }

/-- The dialogue of line n on context k was cleared with this reason and this HANG_UP (R36): REJECTED is
given and the line's prompts are withdrawn, a QUEUED lookup leaves the request queue, the line is in
CLEARING without its context, the context is FREE, and grants are evaluated, which may answer a ringing
line on it at once. -/
def DialogueCleared (n : LineNo) (k : CtxNo) (reason : RejectReason) (hang : Option Manner)
    (s t : State) : Prop :=
  let r := { (s.line n).cleared (slotAfter s.plan.politeLimit (s.line n).forced hang) with
    context := none }
  let c := { s.ctx k with holder := none, signOnTime := none }
  t.line n = r
    ∧ GrantsMade ((s.setLine n r).setCtx k c) t
    ∧ t.attention.queue 2 = queueNotice (s.attention.queue 2) (.rejected n reason)
    ∧ t.attention.queue 3 = withoutLine n (s.attention.queue 3)
    ∧ t.attention.queue 4 = withoutLine n (s.attention.queue 4)
    ∧ (∀ j, j ≠ 2 → j ≠ 3 → j ≠ 4 → j ≠ 6 → t.attention.queue j = s.attention.queue j)
    ∧ t.directory.inService = s.directory.inService
    ∧ t.directory.queue = (if (s.ctx k).lookup = .queued then
        s.directory.queue.filter fun q => !q.isLookupOf k else s.directory.queue)
    ∧ SameBut clearBlocks s t
    ∧ (NoOneRings s →
        t.ctx k = c ∧ OtherContexts k s t ∧ OtherLines n s t ∧ t.answerQueue = []
          ∧ t.attention.queue 6 = s.attention.queue 6)

/-- Line n's session x was closed with this reason and this HANG_UP (R118). -/
def SessionClosed (n : LineNo) (x : Session) (reason : CloseReason) (hang : Option Manner)
    (s t : State) : Prop :=
  t.journal.queue = s.journal.queue ++ [s.buildRecord n x reason]
    ∧ t.journal.sequence = s.journal.sequence + 1
    ∧ t.line n = { (s.line n).cleared (match hang with
        | some m => requestHangUp s.plan.politeLimit (s.line n).forced m
        | none => (s.line n).forced) with recordPending := true }
    ∧ OtherLines n s t
    ∧ t.slot x.slot = (s.slot x.slot).map (fun a => { a with openSessions := a.openSessions - 1 })
    ∧ OtherSlots x.slot s t
    ∧ GivenOnly (.closed n reason) s t
    ∧ t.session n = none
    ∧ OtherSessions n s t
    ∧ SameBut closeBlocks s t

/-! ## Refusals and judged graces -/

/-- A write of master m at offset o was refused, and nothing else happened: the latch records it, and
the first after a clearing gives ADMIN(REFUSED) (R161). -/
def Latched (m : Master) (o : Offset) (s t : State) : Prop :=
  t.bus.latch = { valid := true, offset := o, master := m, more := s.bus.latch.valid }
    ∧ (s.bus.latch.valid = false → GivenOnly .adminRefused s t)
    ∧ (s.bus.latch.valid = true → t.attention = s.attention)
    ∧ SameBut [.latch, .queues] s t

/-- A grace after a reason was judged due or not due (R113): it starts with that reason and the plan's
seconds, its set changes and its seconds stay, or it ends with no reason left. -/
def graceAfter (seconds : Nat) (g : Option Grace) (r : GraceReason) (due : Bool) : Option Grace :=
  match g, r with
  | none, .noBudget =>
    if due then some { noBudget := true, bandBarred := false, left := seconds } else none
  | none, .bandBarred =>
    if due then some { noBudget := false, bandBarred := true, left := seconds } else none
  | some c, .noBudget => if due || c.bandBarred then some { c with noBudget := due } else none
  | some c, .bandBarred => if c.noBudget || due then some { c with bandBarred := due } else none

/-- A grace after both reasons were judged in one ALTER (R94): the set is what is due, its seconds stay
where it was there before (log 29), and it ends where nothing is due. -/
def graceJudged (seconds : Nat) (g : Option Grace) (gone barred : Bool) : Option Grace :=
  if gone || barred then
    some { noBudget := gone, bandBarred := barred
           left := match g with
             | some c => c.left
             | none => seconds }
  else none

/-- Line n's session, of a class that `on` picks and that is not OPERATOR, is barred by the band and
permits of `t` and its grace in `s` does not say so yet. -/
def newlyBarred (on : AccountClass → Bool) (s t : State) (n : LineNo) : Bool :=
  match s.session n with
  | none => false
  | some x =>
    match s.slot x.slot with
    | none => false
    | some a =>
      a.cls != .operator && on a.cls && !t.mayHold a.cls && !x.grace.any fun c => c.bandBarred

/-- A WARNING queue after the warnings that each line is due were given, the lines in order of their
numbers and each line's in the order listed (R94, R112, R115, R142). -/
def warnLines (due : LineNo → List WarningKind) (q : List Notice) : List Notice :=
  (List.finRange 64).foldl
    (fun q n => (due n).foldl (fun q k => queueNotice q (.warning n k)) q) q

/-- Every session of a class that `on` picks, OPERATOR's apart, had BAND_BARRED judged against the band
and the permits of `t`, with WARNING(BAND_BARRED) given, in order of line number, exactly where it was
newly added (R107, R115). -/
def BandJudged (on : AccountClass → Bool) (s t : State) : Prop :=
  (∀ n, t.session n = (s.session n).map fun x =>
    match s.slot x.slot with
    | none => x
    | some a =>
      if a.cls ≠ .operator ∧ on a.cls then
        { x with grace := graceAfter s.plan.graceSeconds x.grace .bandBarred (!t.mayHold a.cls) }
      else x)
  ∧ t.attention.queue 5 = warnLines
      (fun n => if newlyBarred on s t n then [.bandBarred] else []) (s.attention.queue 5)
  ∧ OtherQueues 5 s t

/-! ## R157's table -/

/-- The offset lies in a range, both ends in it. -/
def spans (lo hi : Nat) (o : Offset) : Bool := decide (lo ≤ o.toNat) && decide (o.toNat ≤ hi)

/-- The offset is one of these. -/
def among (os : List Nat) (o : Offset) : Bool := os.contains o.toNat

/-- The tariff, band start, weekend and permit cells and the line setting cells. -/
def settingCells (o : Offset) : Bool := spans 0x0E0 0x0F8 o || spans 0x100 0x13F o

/-- The cells that no master may write: status cells, receipts, the session status words and the journal
ring. -/
def readOnlyCells (o : Offset) : Bool :=
  among [0x0C5, 0x0C6, 0x0C8, 0x0CB, 0x0CC, 0x0CD, 0x0D1] o || spans 0x300 0x3FF o
    || spans 0x4000 0x7FFF o

/-- The part cells a processor write is taken by. -/
def takingCells (o : Offset) : Bool :=
  among [0x0C0, 0x0C1, 0x0C2, 0x0C3, 0x0C4, 0x0C7, 0x0C9, 0x0CA, 0x0CE, 0x0CF] o || settingCells o

/-- The line is in OFF or PASSIVE, whose cycles reach memory (R2). -/
def LineRecord.leftAlone (r : LineRecord) : Bool := r.state == .off || r.state == .passive

/-- A forced command is to be delivered or awaits acknowledge (R11): it is RUDE, or the transmit ring is
empty, or its polite time is over. -/
def LineRecord.hasCommand (r : LineRecord) : Bool :=
  match r.forced with
  | none => false
  | some f =>
    f.awaiting.isSome || f.manner == .rude || r.txPut == r.txTake || f.politeLeft.isNone

/-- R157's table of actions, in the numbers of its offsets, for a cycle of a master at an offset of the
line area. -/
def tableAction (s : State) (c : Cycle) (o : Offset) : Action :=
  let line := fun (unit : Nat) => s.line (lineOf (o.toNat / unit))
  match c.write, c.master with
  | false, .processor =>
    if among [0x0C0, 0x0C1, 0x0C2, 0x0C7, 0x0C9, 0x0CE, 0x0CF] o || settingCells o
        || (readOnlyCells o && !spans 0x4000 0x7FFF o) then .overlay
    else .pass
  | true, .processor =>
    if spans 0x000 0x03F o then (if (line 1).leftAlone then .pass else .watch)
    else if takingCells o then .take
    else if spans 0x200 0x20F o || spans 0x2000 0x203F o then .watch
    else if readOnlyCells o then .refuse
    else .pass
  | false, .scanner =>
    if spans 0x000 0x03F o && !(line 1).leftAlone && (line 1).hasCommand then .overlay else .pass
  | true, .scanner =>
    if spans 0x000 0x03F o then
      if (line 1).leftAlone then .pass
      else if (line 1).forced.any (fun f => f.awaiting.isSome) then .take
      else .watch
    else if spans 0x040 0x07F o then (if (line 1).state = .passive then .pass else .watch)
    else if spans 0x400 0xBFF o then
      let r := s.line (lineOf ((o.toNat - 0x400) / 32))
      let typed := spans 0x21 0x7E ((c.data.extractLsb' 0 7).setWidth 15)
      if r.state = .passive then .pass
      else if r.state = .password && (typed || c.data.extractLsb' 8 3 != 0#3) then .alter
      else .watch
    else if among [0x0D0] o || spans 0x2040 0x207F o then .watch
    else if takingCells o || readOnlyCells o then .refuse
    else .pass

/-! ## The premises of statements -/

/-- PORN is high: the part is out of power-on reset (R177). -/
def Running (s : State) : Prop := s.pins.porn = true

/-! ## Invariants -/

/-- The memory array is in its canonical form. -/
def MemoryCanonical (s : State) : Prop := Memory.wf s.mem = true

/-- ATTN is asserted exactly while some class is pollable (R146). -/
def AttnExact (s : State) : Prop := s.pins.attn = s.attention.anyPollable

/-- R142: a queue holds a subject at most once, and each entry, queued or in service, stands at its own
class. -/
def SubjectsOnce (s : State) : Prop :=
  ∀ k, ((s.attention.queue k).map Notice.subject).Nodup
    ∧ (∀ e ∈ s.attention.queue k, e.cls = k)
    ∧ (∀ e, s.attention.served k = some e → e.cls = k)

/-- R78: for every non-empty slot, budget plus units since basis equals basis. -/
def BudgetsBalance (s : State) : Prop :=
  ∀ i a, s.slot i = some a → a.budget + a.units = a.basis

/-- R41: the low seven bits of the fill character are not printable. -/
def FillUnprintable (s : State) : Prop :=
  printable ((s.fill.extractLsb' 0 7).setWidth 8) = false

/-- R66: no two non-empty slots hold the same name. -/
def NamesUnique (s : State) : Prop :=
  ∀ i j a b, s.slot i = some a → s.slot j = some b → a.name = b.name → i = j

/-- Missed calls and idle minutes are within their ranges (R1). -/
def LinesInRange (s : State) : Prop := ∀ n, (s.line n).missed ≤ 15 ∧ (s.line n).idle ≤ 120

/-- Attempts, noise and the lengths of both buffers are within their ranges, and a held context's noise is
below the 8 that clears its dialogue (R40, R50). -/
def ContextsInRange (s : State) : Prop :=
  ∀ k, (s.ctx k).attempts ≤ 2 ∧ (s.ctx k).noise ≤ 8
    ∧ (s.ctx k).name.length ≤ 12 ∧ (s.ctx k).password.length ≤ 12
    ∧ ((s.ctx k).holder ≠ none → (s.ctx k).noise ≤ 7)

/-- An account's fields are within the ranges of R65's table. -/
def Account.inRange (a : Account) : Prop :=
  1 ≤ a.name.length ∧ a.name.length ≤ 12 ∧ a.number ≠ 0#16
    ∧ a.budget ≤ 65535 ∧ a.basis ≤ 65535 ∧ a.units ≤ 65535
    ∧ 1 ≤ a.maxSessions ∧ a.maxSessions ≤ 4 ∧ a.openSessions ≤ a.maxSessions
    ∧ a.failures ≤ 15 ∧ ∀ m, a.lock = .timed m → 1 ≤ m ∧ m ≤ 1440

/-- Every account (R65) and the census cursor (R80) are within their ranges. -/
def SlotsInRange (s : State) : Prop :=
  (∀ i a, s.slot i = some a → a.inRange) ∧ s.directory.census.cursor ≤ 2048

/-- The timebase counts (R100), the clock (R102), the band starts (R106) and the rates (R104) are within
their ranges. -/
def ClockInRange (s : State) : Prop :=
  s.meter.shortTicks < 100 ∧ s.meter.secondTicks < 60
    ∧ s.meter.minute < 1440 ∧ s.meter.weekday < 7
    ∧ (∀ b, s.meter.bandStart b < 1440) ∧ ∀ b v, s.rate b v ≤ 3600

/-- A session record's counters are within the ranges of R108's table, and its grace has a reason and
seconds within theirs. -/
def Session.inRange (x : Session) : Prop :=
  x.openMinute < 1440 ∧ x.seconds ≤ 4294967295 ∧ (∀ b : Fin 4, x.units[b] ≤ 65535)
    ∧ x.overrun ≤ 65535 ∧ x.charge ≤ 3599 ∧ ∀ c, x.grace = some c →
      c.left ≤ 600 ∧ (c.noBudget || c.bandBarred) = true

/-- Every session record is within its ranges (R108). -/
def SessionsInRange (s : State) : Prop := ∀ n x, s.session n = some x → x.inRange

/-- Capacity, head, tail and low mark are within their ranges (R122, R123). -/
def RingInRange (s : State) : Prop :=
  s.journal.capacity ≤ 1024 ∧ s.journal.lowMark ≤ 63
    ∧ (s.journal.head < s.journal.capacity ∨ s.journal.head = 0)
    ∧ (s.journal.tail < s.journal.capacity ∨ s.journal.tail = 0)

/-- The next plan word (R165) and the values of plan words 8 and 10 that counts start from (R173) are
within their ranges; the lockout time is at least 1 once any line is answered and any lookup made, as
R74 has it. -/
def PlanInRange (s : State) : Prop :=
  s.plan.lockTime ≤ 1440 ∧ s.plan.graceSeconds ≤ 600
    ∧ (∀ k, s.plan.state = .planning k →
        2 ≤ k ∧ k ≤ 11 ∧ (k ≤ 3 → s.journal.capacity = 0))
    ∧ (s.plan.lockTime = 0 →
        s.plan.state ≠ .planned ∧ (∀ k, s.plan.state = .planning k → k ≤ 8)
          ∧ (∀ n, (s.line n).context = none)
          ∧ (∀ q ∈ s.directory.queue, q.isCommit = true)
          ∧ ∀ q, s.directory.inService = some q → q.isCommit = true)

/-- The counted values of the lines, contexts, slots, clock, tables, sessions, ring and plan that the
seven definitions above name are within their ranges (R1, R40, R65, R80, R100, R102, R104, R106, R108,
R122, R123, R165). The timers and the ticks due have no bound of their own here. -/
def InRange (s : State) : Prop :=
  LinesInRange s ∧ ContextsInRange s ∧ SlotsInRange s ∧ ClockInRange s ∧ SessionsInRange s
    ∧ RingInRange s ∧ PlanInRange s

/-- R24: a line is on the answer queue exactly while RINGING, and at most once. -/
def QueueLinked (s : State) : Prop :=
  s.answerQueue.Nodup ∧ ∀ n, n ∈ s.answerQueue ↔ (s.line n).state = .ringing

/-- R28: a held context and its line point at each other, and a line has a context number exactly in the
four dialogue states. -/
def ContextsLinked (s : State) : Prop :=
  (∀ n k, (s.line n).context = some k ↔ (s.ctx k).holder = some n)
    ∧ ∀ n, (s.line n).context.isSome = (s.line n).state.inDialogue

/-- R1, R108: a line has a session record exactly while SIGNED_ON and a clearing record exactly while in
CLEARING. -/
def RecordsLinked (s : State) : Prop :=
  ∀ n, ((s.session n).isSome = true ↔ (s.line n).state = .signedOn)
    ∧ ((s.line n).clearing.isSome = true ↔ (s.line n).state = .clearing)

/-- The lines, the answer queue, the contexts and the session records agree (R1, R24, R28, R108). -/
def WellLinked (s : State) : Prop := QueueLinked s ∧ ContextsLinked s ∧ RecordsLinked s

/-- R127: contexts held, open sessions, queued records and visible records together never exceed the
capacity, which stays 0 from a plan start to the plan word 3 that sets it (R123). -/
def CreditBounded (s : State) : Prop :=
  s.claims ≤ s.journal.capacity
    ∧ ∀ k, s.plan.state = .planning k → k ≤ 3 → s.journal.capacity = 0

/-- R122: the head is the tail plus the visible count, modulo the capacity, and all three are 0 while the
capacity is 0. -/
def RingPlaced (s : State) : Prop :=
  (0 < s.journal.capacity → s.journal.tail < s.journal.capacity
      ∧ s.journal.head = (s.journal.tail + s.journal.visible) % s.journal.capacity)
    ∧ (s.journal.capacity = 0 →
        s.journal.head = 0 ∧ s.journal.tail = 0 ∧ s.journal.visible = 0)

/-- R77: a session names a non-empty slot, and each slot's open sessions are as many as the sessions that
name it and at most its max sessions. -/
def SessionsCounted (s : State) : Prop :=
  (∀ n x, s.session n = some x → (s.slot x.slot).isSome)
    ∧ ∀ i a, s.slot i = some a →
        a.openSessions = ((List.finRange 64).filter fun n =>
          (s.session n).any fun x => x.slot == i).length
        ∧ a.openSessions ≤ a.maxSessions

/-- R126: a line's record-pending flag is set exactly while its record is queued, the queue holds at most
one record for each line, and a line in a dialogue or a session has none (R29, R118). -/
def RecordsPending (s : State) : Prop :=
  (s.journal.queue.map JournalRecord.line).Nodup
    ∧ (∀ n, (s.line n).recordPending = true ↔ n ∈ s.journal.queue.map JournalRecord.line)
    ∧ ∀ n, (s.line n).recordPending = true →
        (s.line n).state.inDialogue = false ∧ (s.line n).state ≠ .signedOn

end Sys2Proof.Machine
end

