-- ==== Sys2Proof/Certificates/Slice0/Obligations.lean ====
section
/-!
DEFINITION. The statements for the provers, in the order of OBLIGATIONS.json: the queue and the resets,
the bus passage, the journal, the lines, the dialogue, the directory, the meter, attention, the plan,
and the invariants that every step keeps.
-/

open Sys2Proof Sys2Proof.Machine

/-! ## The queue and the resets -/

/-- A step takes the command at the front of the queue and answers what it does on the queue's rest; on an
empty queue one microsecond of real time passes, which an OPEN window counts while PORN is high and no
record is being posted (the idle step is the model's choice, log 11). -/
def Obligations.StepRunsTheFrontCommand : Prop :=
  (∀ (c : Instr) (rest : List Instr) (s : State), s.pending = c :: rest →
    step s = exec c { s with pending := rest })
  ∧ (∀ s : State, s.pending = [] → ∃ t, step s = .next t ∧ SameBut [.window] s t
      ∧ t.pins.attn = s.pins.attn
      ∧ (∀ w, s.journal.window = some w → Running s → s.bus.owner ≠ .posting →
          t.journal.window = some { w with left := w.left - 1 })
      ∧ (¬ Running s ∨ s.bus.owner = .posting → t.journal.window = s.journal.window)
      ∧ (s.journal.window = none → t.journal.window = none))

/-- The reset values the spec states (R23, R39, R41, R64, R84, R99, R121, R140, R154, R164, R165). -/
def Obligations.ResetHoldsTheStatedValues : Prop :=
  (∀ n, State.reset.line n =
    { mode := .off, state := .off, lastCarrier := false, lastRing := false, speed := 0,
      doubt := none, ringGone := none, answer := none, forced := none, txPut := 0, txTake := 0,
      activity := false, idle := 0, sticky := 0, missed := 0, context := none,
      recordPending := false, clearing := none })
  ∧ State.reset.answerQueue = []
  ∧ (∀ k, (State.reset.ctx k).holder = none ∧ (State.reset.ctx k).signOnTime = none)
  ∧ State.reset.fill = 0x20#8
  ∧ (∀ i, State.reset.slot i = none)
  ∧ State.reset.directory.queue = [] ∧ State.reset.directory.inService = none
  ∧ State.reset.directory.census.active = false ∧ State.reset.directory.census.cursor = 0
  ∧ State.reset.directory.staging.state = .fresh ∧ State.reset.directory.staging.outcome = .none
  ∧ (∀ i : Fin 16, State.reset.directory.staging.record.words[i] = 0#16
      ∧ State.reset.directory.staging.record.fill[i] = false)
  ∧ State.reset.directory.staging.record.last = 0
  ∧ State.reset.meter.divisor = none ∧ State.reset.meter.shortTicks = 0
  ∧ State.reset.meter.secondTicks = 0
  ∧ State.reset.meter.minute = 0 ∧ State.reset.meter.weekday = 0 ∧ State.reset.meter.day = 0#16
  ∧ (∀ b v, State.reset.rate b v = 0) ∧ (∀ b, State.reset.meter.bandStart b = 0)
  ∧ State.reset.meter.weekend = 0#7
  ∧ (∀ c, State.reset.permit c = { signOn := 0xF#4, hold := 0xF#4 })
  ∧ State.reset.meter.band = 3 ∧ (∀ n, State.reset.session n = none)
  ∧ State.reset.journal =
    { capacity := 0, head := 0, tail := 0, visible := 0, sequence := 0, lowMark := 0, queue := [],
      window := none }
  ∧ (∀ k, State.reset.attention.queue k = [] ∧ State.reset.attention.served k = none)
  ∧ State.reset.attention.mask = 0#8 ∧ State.reset.attention.lowest = 7
  ∧ State.reset.attention.autoDone = false ∧ State.reset.attention.autoRotate = false
  ∧ State.reset.attention.specialMask = false ∧ State.reset.pins.attn = false
  ∧ State.reset.bus.latch = { valid := false, offset := 0, master := .processor, more := false }
  ∧ State.reset.bus.owner = .free ∧ State.reset.bus.waiting = []
  ∧ State.reset.plan.state = .unplanned ∧ State.reset.plan.warnThreshold = 0

/-- A power-on reset returns every block to the state of State.reset, PORN low, and leaves the memory
array as it was, unless it cuts a record posting short: then some first words of that record, as many as
the free value says, have reached its position. Three clauses rest on the model's choices: how much of a
torn record is left, and that it is its first words (log 4); the fields of State.reset that the spec
gives no value for (the census condition, log 6; BD, log 7; plan words 4 to 10, log 8; FREE contexts,
log 20; BRDY, log 21); and the cycles presented while PORN is low (log 15). -/
def Obligations.PowerOnResetReturnsEveryBlock : Prop :=
  ∀ s : State, Completes .powerOnReset s fun t =>
    SameBut [.strap, .porn, .mem, .freeUses, .pending] State.reset t
    ∧ t.pins.porn = false ∧ t.pins.attn = false
    ∧ t.pins.presented = (if s.pins.porn then [] else s.pins.presented)
    ∧ t.bus.strap = s.bus.strap ∧ t.pending = s.pending
    ∧ (s.bus.owner ≠ .posting ∨ s.journal.queue = [] →
        t.mem = s.mem ∧ t.freeUses = s.freeUses)
    ∧ (∀ r rest, s.bus.owner = .posting → s.journal.queue = r :: rest →
        ∃ k, k ≤ 16 ∧ t.mem = (s.writeRecord s.journal.head r.words.toList k).mem)

/-- While PORN is low no command changes the part, but for a power-on reset, its release, and a cycle
presented, which waits on BREQ, one for each master (R156, R177). The rise of PORN samples the straps
and takes the cycles still presented, in their order (R155, R156); at a part that is out of reset it
does not arise. That the presented cycles arrive in the order presented, one for each master, is read
from the rules (log 15), and so is that a command held by PORN, and a release while PORN is high, change
nothing (log 27). -/
def Obligations.PornHoldsThePartUntilItsRelease : Prop :=
  ((∀ (i : Instr) (s : State), s.pins.porn = false → i ≠ .powerOnReset →
      (∀ st p q, i ≠ .powerOnResetRelease st p q) → (∀ c, i ≠ .masterCycleArrival c) →
      exec i s = .next s)
    ∧ (∀ (c : Cycle) (s : State), s.pins.porn = false →
        Completes (.masterCycleArrival c) s fun t =>
          SameBut [.porn, .brdy] s t ∧ t.pins.porn = false ∧ t.pins.attn = s.pins.attn
          ∧ ((∃ d ∈ s.pins.presented, d.master = c.master) →
              t.pins.presented = s.pins.presented ∧ SameBut [] s t)
          ∧ ((∀ d ∈ s.pins.presented, d.master ≠ c.master) →
              t.pins.presented = s.pins.presented ++ [c] ∧ t.pins.brdy c.master = false
              ∧ ∀ m, m ≠ c.master → t.pins.brdy m = s.pins.brdy m)))
  ∧ ((∀ (st : BitVec 3) (p q : Bool) (s : State), s.pins.porn = false →
      Completes (.powerOnResetRelease st p q) s fun t =>
        let u := { s with bus := { s.bus with strap := st },
                          pins := { s.pins with porn := true, presented := [] } }
        t.bus.strap = st ∧ t.pins.porn = true ∧ t.pins.presented = []
        ∧ t.pins.attn = t.attention.anyPollable
        ∧ (s.stillPresented p q = [] → SameBut [.strap, .porn] s t)
        ∧ (∀ c, s.stillPresented p q = [c] → t = (State.arrive u c).refreshAttn)
        ∧ (∀ c d, s.stillPresented p q = [c, d] →
            t = (State.arrive (State.arrive u c) d).refreshAttn))
    ∧ (∀ (st : BitVec 3) (p q : Bool) (s : State), Running s →
        exec (.powerOnResetRelease st p q) s = .next s))

/-- A bus reset returns the Attention Controller to its reset values, clears the latch, discards the waiting
cycles and a waiting commit, ends the census and empties the staging buffer unless a commit is in
service, and leaves everything else (R71, R84, R99, R154, R164, R177). A master cycle in progress keeps
the memory side and is marked as one whose master is restarted (log 14), and the window keeps what a
scanner cycle, even one discarded here, has made of it (log 13): both are read from the rules. -/
def Obligations.BusResetKeepsAllButFourBlocks : Prop :=
  ∀ s : State, Running s → Completes .busReset s fun t =>
    t.attention = Attention.reset ∧ t.pins.attn = false
    ∧ t.bus.latch = { valid := false, offset := 0, master := .processor, more := false }
    ∧ t.bus.waiting = [] ∧ t.bus.owner = s.bus.owner
    ∧ (t.bus.restarted = true ↔ ∃ c a d, s.bus.owner = .cycle c a d)
    ∧ t.journal.window = s.journal.window
    ∧ t.directory.queue = (s.directory.queue.filter fun q => !q.isCommit)
    ∧ t.directory.inService = s.directory.inService
    ∧ t.directory.census.active = false ∧ t.directory.census.cursor = 0
    ∧ ((∀ r, s.directory.inService ≠ some (.commit r)) →
        t.directory.staging =
          { state := .fresh, record := Staged.empty, outcome := .none, resetInService := false })
    ∧ (∀ r, s.directory.inService = some (.commit r) →
        t.directory.staging = { s.directory.staging with resetInService := true })
    ∧ SameBut [.queues, .inService, .priority, .latch, .memorySide, .requests, .census, .staging] s t

/-! ## The bus passage -/

/-- An arriving cycle of a master that has none is taken at once at a FREE memory side with nothing
waiting, and else joins the tail of the waiting list; a scanner cycle closes the window at its arrival,
or marks it to close at the completion of a posting under way (R134, R159; the mark is log 13's). BRDY goes
low for the arriving cycle's master (log 21). A second cycle of one master does not arise (log 12); a
cycle whose master a bus reset has restarted is the part's to complete, and no cycle of its master's any
more (R164; log 14). -/
def Obligations.AnArrivingCycleIsTakenOrWaits : Prop :=
  ∀ (c : Cycle) (s : State), Running s →
    (s.busyWith c.master = false → Completes (.masterCycleArrival c) s fun t =>
      let u := (s.setBrdy c.master false).setWindow
        (if c.master = .scanner then
          (if s.bus.owner = .posting then
            s.journal.window.map fun w => { w with ending := true } else none)
        else s.journal.window)
      (s.bus.owner = .free → s.bus.waiting = [] →
        t.bus.owner = .cycle c (u.classify c).action (u.classify c).data
        ∧ t.bus.restarted = false ∧ t.bus.waiting = []
        ∧ SameBut [.memorySide] (u.classify c).state t)
      ∧ (s.bus.owner ≠ .free ∨ s.bus.waiting ≠ [] →
        t.bus.owner = s.bus.owner ∧ t.bus.restarted = s.bus.restarted
        ∧ t.bus.waiting = s.bus.waiting ++ [c] ∧ SameBut [.memorySide] u t))
    ∧ (s.busyWith c.master = true → Completes (.masterCycleArrival c) s fun t => SameBut [] s t)
    ∧ (s.busyWith c.master = true ↔
      (∃ d a v, s.bus.owner = .cycle d a v ∧ d.master = c.master ∧ s.bus.restarted = false)
        ∨ ∃ d ∈ s.bus.waiting, d.master = c.master)

/-- The end of the cycle that owns the memory side raises BRDY for its master, whose level alone changes
(log 21), and puts a read's word on BD; then the oldest waiting cycle leaves the list and is taken, and
with nothing waiting a posting that passes the start test becomes the owner (R132, R159, R177). A cycle
whose master a bus reset has restarted ends without answering it (log 14). -/
def Obligations.ACycleEndHandsTheMemorySideOn : Prop :=
  ∀ (c : Cycle) (a : Action) (d : Word) (s : State), Running s → s.bus.owner = .cycle c a d →
    Completes .masterCycleEnd s fun t =>
      let u := if s.bus.restarted then s
        else if c.write then s.setBrdy c.master true else (s.setBrdy c.master true).setBd d
      (s.bus.restarted = false → u.pins.brdy c.master = true)
      ∧ (∀ m, m ≠ c.master → u.pins.brdy m = s.pins.brdy m)
      ∧ (∀ w rest, s.bus.waiting = w :: rest →
        let v := { u with bus := { s.bus with owner := .free, restarted := false, waiting := rest } }
        t.bus.owner = .cycle w (v.classify w).action (v.classify w).data
        ∧ t.bus.restarted = false ∧ t.bus.waiting = rest
        ∧ SameBut [.memorySide] (v.classify w).state t)
      ∧ (s.bus.waiting = [] → t.bus.waiting = [] ∧ t.bus.restarted = false
        ∧ SameBut [.memorySide] u t
        ∧ ((∃ w, s.journal.window = some w ∧ 0 < w.eligible ∧ 6 ≤ w.left) →
            t.bus.owner = .posting)
        ∧ ((∀ w, s.journal.window = some w → w.eligible = 0 ∨ w.left < 6) →
            t.bus.owner = .free))

/-- The action a cycle receives at its taking is the one R157's table gives its offset, master and
direction, and decides what reaches memory (R155, R157): a read changes no word; a passed or watched
write stores its data, an altered one the entry with the fill character, a taken or refused one nothing;
a passed cycle changes nothing of the part but the word it stores, inside the line area as outside it. -/
def Obligations.TheActionDecidesWhatReachesMemory : Prop :=
  (∀ (s : State) (c : Cycle) (o : Offset), MemoryCanonical s → s.areaOffset c.addr = some o →
    (s.classify c).action = tableAction s c o
    ∧ ((s.classify c).action = .pass → SameBut [.mem] s (s.classify c).state)
    ∧ (c.write = false →
      (∀ a, (s.classify c).state.readMem a = s.readMem a)
      ∧ ((s.classify c).action = .pass ∧ (s.classify c).data = s.readMem c.addr
          ∧ (s.classify c).state = s
        ∨ (s.classify c).action = .overlay))
    ∧ (c.write = true →
      OtherWords c.addr s (s.classify c).state
      ∧ ((s.classify c).action = .pass ∨ (s.classify c).action = .watch →
          (s.classify c).state.readMem c.addr = c.data)
      ∧ ((s.classify c).action = .alter →
          (s.classify c).state.readMem c.addr = c.data.extractLsb' 8 8 ++ s.fill)
      ∧ ((s.classify c).action = .take ∨ (s.classify c).action = .refuse →
          (s.classify c).state.readMem c.addr = s.readMem c.addr)
      ∧ (s.classify c).action ≠ .overlay))
  ∧ (∀ (s : State) (c : Cycle), MemoryCanonical s → s.areaOffset c.addr = none →
      (s.classify c).action = .pass
      ∧ (c.write = false → (s.classify c).data = s.readMem c.addr ∧ (s.classify c).state = s)
      ∧ (c.write = true → (s.classify c).state.readMem c.addr = c.data
          ∧ OtherWords c.addr s (s.classify c).state ∧ SameBut [.mem] s (s.classify c).state))

/-- A refused write is recorded by the latch, the first after a clearing gives ADMIN(REFUSED), and nothing
else changes; a processor read of the latch cell returns its valid flag and offset and clears it (R161,
R162). -/
def Obligations.TheLatchRecordsRefusedWrites : Prop :=
  (∀ (m : Master) (o : Offset) (s : State), Running s → refusesWrite m (region o) = true →
    Completes (.writeRefused m o) s (Latched m o s))
  ∧ (∀ s : State, Running s → Completes .latchRead s fun t =>
      t.pins.bd = (if s.bus.latch.valid then 1#1 ++ s.bus.latch.offset else 0#16)
      ∧ t.bus.latch = { valid := false, offset := 0, master := .processor, more := false }
      ∧ SameBut [.latch, .bd] s t)

/-! ## The journal -/

/-- The sweep marker passes to memory, ends an OPEN window and opens a new one over the records queued; a
window whose time has run out closes unless a record is being posted; a posting starts exactly when the
start test of R132 holds (R130 to R132, R134). That a time remaining of 0 stands until WINDOW_TIME_OUT is
taken is the model's (log 11), and that a time out not due changes nothing is read from the rules
(log 5). -/
def Obligations.WindowsOpenCloseAndStartPostings : Prop :=
  (∀ (w : Word) (s : State), Running s → MemoryCanonical s →
    Completes (.sweepMarker w) s fun t =>
      (s.journal.queue = [] → t.journal.window = none)
      ∧ (s.journal.queue ≠ [] → t.journal.window =
          some { left := s.plan.windowLength * 10, eligible := s.journal.queue.length,
                 ending := false })
      ∧ t.readMem (s.areaAddr 0x0D0#15) = w ∧ OtherWords (s.areaAddr 0x0D0#15) s t
      ∧ SameBut [.mem, .window] s t)
  ∧ (∀ s : State, Running s → Completes .windowTimeOut s fun t =>
      (∀ w, s.journal.window = some w → w.left = 0 → s.bus.owner ≠ .posting →
        t.journal.window = none ∧ SameBut [.window] s t)
      ∧ ((∀ w, s.journal.window = some w → 0 < w.left) ∨ s.bus.owner = .posting →
        SameBut [] s t))
  ∧ (∀ s : State, Running s → Completes .postingStart s fun t =>
      SameBut [.memorySide] s t ∧ t.bus.waiting = s.bus.waiting
      ∧ ((∃ w, s.journal.window = some w ∧ 0 < w.eligible ∧ 6 ≤ w.left) →
          s.bus.owner = .free → s.bus.waiting = [] → t.bus.owner = .posting)
      ∧ ((∀ w, s.journal.window = some w → w.eligible = 0 ∨ w.left < 6)
          ∨ s.bus.owner ≠ .free ∨ s.bus.waiting ≠ [] → t.bus.owner = s.bus.owner))

/-- The completion of a posting (R133, R134): the record's words are in its position and it leaves the
queue, its line's record-pending flag clears, head and visible count move on, JOURNAL(RECORDS) is given,
grants are evaluated, and the window counts on or closes. Then, with no cycle held, the next posting may
start, and else the oldest held cycle is taken (R135). The sixteen words are stored at the completion
(log 26), and a window marked as ending closes there (log 13): both are read from the rules. -/
def Obligations.APostingCompletionHandsTheRecordOver : Prop :=
  ∀ (r : JournalRecord) (rest : List JournalRecord) (s : State), Running s →
    s.bus.owner = .posting → s.journal.queue = r :: rest →
    MemoryCanonical s → s.journal.head < s.journal.capacity → s.journal.capacity ≤ 1024 →
    let p := s.recordPosted.windowAfterPosting
    let u := ({ s with journal := { s.journal with
          queue := rest
          head := if s.journal.head + 1 < s.journal.capacity then s.journal.head + 1 else 0
          visible := s.journal.visible + 1 } }.setLine r.line
        { s.line r.line with recordPending := false }).give .journalRecords
    ((∀ i : Fin 16, p.readMem (s.areaAddr (BitVec.ofNat 15 (0x4000 + 16 * s.journal.head + i.val)))
        = r.words[i])
      ∧ (∀ a, (∀ i : Fin 16,
          a ≠ s.areaAddr (BitVec.ofNat 15 (0x4000 + 16 * s.journal.head + i.val))) →
          p.readMem a = s.readMem a)
      ∧ p.journal.queue = rest ∧ p.journal.sequence = s.journal.sequence
      ∧ p.journal.head =
          (if s.journal.head + 1 < s.journal.capacity then s.journal.head + 1 else 0)
      ∧ p.journal.visible = s.journal.visible + 1
      ∧ p.journal.capacity = s.journal.capacity ∧ p.journal.tail = s.journal.tail
      ∧ p.journal.lowMark = s.journal.lowMark
      ∧ GrantsMade u p ∧ OtherQueues 6 s p
      ∧ (NoOneRings s → p.line r.line = { s.line r.line with recordPending := false }
          ∧ OtherLines r.line s p ∧ GivenOnly .journalRecords s p
          ∧ SameBut [.mem, .lines, .ring, .posting, .window, .queues] s p)
      ∧ (∀ w, s.journal.window = some w →
          p.journal.window = (if w.eligible - 1 = 0 ∨ w.ending then none
            else some { left := w.left - 4, eligible := w.eligible - 1, ending := false }))
      ∧ (s.journal.window = none → p.journal.window = none)
      ∧ SameBut [.mem, .lines, .answerQueue, .contexts, .ring, .posting, .window, .queues] s p)
    ∧ (s.bus.waiting = [] → Completes .postingCompletion s fun t =>
      t.bus.waiting = [] ∧ t.bus.restarted = false
      ∧ (∀ w, s.journal.window = some w →
          t.bus.owner = (if w.eligible - 1 = 0 ∨ w.ending ∨ w.left - 4 < 6 then .free
            else .posting))
      ∧ (s.journal.window = none → t.bus.owner = .free)
      ∧ SameBut [.memorySide] p t)
    ∧ (∀ (c : Cycle) (held : List Cycle), s.bus.waiting = c :: held →
      Completes .postingCompletion s fun t =>
        let v := { p with bus := { p.bus with owner := .free, restarted := false, waiting := held } }
        t.bus.owner = .cycle c (v.classify c).action (v.classify c).data
        ∧ t.bus.restarted = false ∧ t.bus.waiting = held
        ∧ SameBut [.memorySide] (v.classify c).state t)

/-- A tail write hands back records up to the visible count and is refused beyond it (R138): the advance
is the new index less the tail modulo the capacity, and the whole capacity for the tail's own index
while the ring is full; and grants are evaluated on the credit given back. -/
def Obligations.ATailWriteHandsRecordsBack : Prop :=
  ∀ (w : Word) (s : State), Running s →
    let i := (w.extractLsb' 0 10).toNat
    let C := s.journal.capacity
    let adv := if i = s.journal.tail ∧ s.journal.visible = C ∧ 0 < C then C
      else (i + C - s.journal.tail) % C
    let handed := { s.journal with tail := i, visible := s.journal.visible - adv }
    (i < C → adv ≤ s.journal.visible → 0 < adv → Completes (.tailWrite w) s fun t =>
      t.journal = handed
      ∧ SameBut [.ring, .lines, .answerQueue, .contexts, .queues] s t
      ∧ GrantsMade { s with journal := handed } t ∧ OtherQueues 6 s t
      ∧ (NoOneRings s → SameBut [.ring] s t))
    ∧ (i < C → adv ≤ s.journal.visible → adv = 0 → Completes (.tailWrite w) s fun t =>
      SameBut [] s t)
    ∧ (C ≤ i ∨ s.journal.visible < adv →
      Completes (.tailWrite w) s (Latched .processor 0x0C7#15 s))

/-- The record a session close builds (R119, R124, R125, R175): word by word, with word 16 the check word
over the first fifteen. That bits 13 and 14 of word 4, to which R175 assigns no field, are 0 is the
model's choice (log 30). -/
def Obligations.ARecordCarriesItsSession : Prop :=
  ∀ (s : State) (n : LineNo) (x : Session) (a : Account) (reason : CloseReason),
    s.slot x.slot = some a →
    let r := s.buildRecord n x reason
    r.line = n
    ∧ r.words[0] = s.journal.sequence ∧ r.words[1] = a.number
    ∧ (r.words[2].extractLsb' 0 11).toNat = x.slot.val
    ∧ (r.words[2].extractLsb' 11 5).toNat = n.val % 32
    ∧ (r.words[3].extractLsb' 0 2).toNat = (s.line n).speed.val
    ∧ (r.words[3].extractLsb' 2 2).toNat = classCode a.cls
    ∧ (r.words[3].extractLsb' 4 3).toNat = reason.code
    ∧ r.words[3].extractLsb' 7 4 = x.faults
    ∧ r.words[3].getLsbD 11 = x.budgetWarned ∧ r.words[3].getLsbD 12 = x.idleWarned
    ∧ (r.words[3].extractLsb' 13 2) = 0#2 ∧ r.words[3].getLsbD 15 = decide (32 ≤ n.val)
    ∧ r.words[4] = x.openDay ∧ r.words[5] = BitVec.ofNat 16 x.openMinute
    ∧ r.words[6] = s.meter.day ∧ r.words[7] = BitVec.ofNat 16 s.meter.minute
    ∧ r.words[8] = BitVec.ofNat 16 (x.seconds / 65536) ∧ r.words[9] = BitVec.ofNat 16 x.seconds
    ∧ (∀ b : Fin 4, r.words[10 + b.val] = BitVec.ofNat 16 x.units[b])
    ∧ r.words[14] = BitVec.ofNat 16 x.overrun
    ∧ r.words[15] = checkWords (r.words.toList.take 15)

/-! ## Answering -/

/-- A grant evaluation makes the next grant and goes on with what is left, until none is allowed; a grant
is allowed exactly while the plan is PLANNED, credit is at least 1, a context is FREE and a queued
line's record-pending flag is clear, and it gives the lowest FREE context to the first such line (R29,
R30); and what a grant does (R31, R128). -/
def Obligations.GrantsGoToTheOldestEligibleLine : Prop :=
  (∀ s : State, s.evaluateGrants.nextGrant = none)
  ∧ (∀ s : State, s.evaluateGrants = match s.nextGrant with
      | some (k, n) => (s.grant k n).evaluateGrants
      | none => s)
  ∧ (∀ (s : State) (k : CtxNo) (n : LineNo), s.nextGrant = some (k, n) ↔
      s.plan.state = .planned ∧ 1 ≤ s.credit
      ∧ (s.ctx k).holder = none ∧ (∀ j, j < k → (s.ctx j).holder ≠ none)
      ∧ (∃ before after, s.answerQueue = before ++ n :: after
          ∧ (∀ m ∈ before, (s.line m).recordPending = true) ∧ (s.line n).recordPending = false))
  ∧ (∀ (s : State) (k : CtxNo) (n : LineNo), s.nextGrant = some (k, n) →
      let t := s.grant k n
      t.ctx k = { holder := some n, name := [], nameLong := false, password := [],
                  passwordLong := false, attempts := 0, noise := 0, signOnTime := none,
                  lookup := .none }
      ∧ OtherContexts k s t
      ∧ t.answerQueue = s.answerQueue.filter (· != n)
      ∧ t.line n = { s.line n with
          context := some k, ringGone := none, state := .answering,
          answer := some (s.plan.answerTime * 100),
          forced := (match (s.line n).forced with
            | none => some { kind := .answer, manner := .rude, politeLeft := none, awaiting := none }
            | some f => some f) }
      ∧ OtherLines n s t ∧ t.credit = s.credit - 1
      ∧ (s.journal.lowMark + 1 = s.credit → GivenOnly .journalCreditLow s t)
      ∧ (s.journal.lowMark + 1 ≠ s.credit → t.attention = s.attention)
      ∧ SameBut [.lines, .answerQueue, .contexts, .queues] s t)

/-- A ring arrival (R5, R25): the line becomes RINGING at the tail of the answer queue with its ring-gone
timer at the full ring-gone time, and grants are evaluated. Where none is allowed it stays there; where
it is the first line that may be granted, it is answered in the same event (R31), and a credit that falls
to the low mark by it gives JOURNAL(CREDIT_LOW) (R128). -/
def Obligations.ARingArrivalQueuesTheLine : Prop :=
  ∀ (n : LineNo) (w : Word) (s : State), Running s → MemoryCanonical s →
    (s.line n).state = .idle → (s.line n).mode = .watched → (s.line n).lastRing = false →
    s.plan.state = .planned → w.getLsbD 1 = true →
    (w.getLsbD 0 = false ∨ (s.line n).lastCarrier = true) →
    (s.credit = 0 ∨ (∀ k, (s.ctx k).holder ≠ none)
        ∨ (∀ m ∈ s.answerQueue ++ [n], (s.line m).recordPending = true) →
      Completes (.statusWrite n w) s fun t =>
        t.answerQueue = s.answerQueue ++ [n]
        ∧ t.line n = { s.line n with
            state := .ringing, ringGone := some (s.plan.ringGoneTime * 100),
            lastCarrier := w.getLsbD 0, lastRing := true }
        ∧ OtherLines n s t
        ∧ t.readMem (s.areaAddr (statusOffset n)) = w ∧ OtherWords (s.areaAddr (statusOffset n)) s t
        ∧ SameBut [.mem, .lines, .answerQueue] s t)
    ∧ (∀ k : CtxNo, 1 ≤ s.credit → (s.ctx k).holder = none →
        (∀ j, j < k → (s.ctx j).holder ≠ none) → n ∉ s.answerQueue →
        (∀ m ∈ s.answerQueue, (s.line m).recordPending = true) → (s.line n).recordPending = false →
        Completes (.statusWrite n w) s fun t =>
          t.answerQueue = s.answerQueue ∧ t.ctx k = Context.fresh (some n) ∧ OtherContexts k s t
          ∧ t.line n = { s.line n with
              context := some k, ringGone := none, state := .answering,
              answer := some (s.plan.answerTime * 100),
              forced := requestAnswer (s.line n).forced,
              lastCarrier := w.getLsbD 0, lastRing := true }
          ∧ OtherLines n s t
          ∧ t.readMem (s.areaAddr (statusOffset n)) = w ∧ OtherWords (s.areaAddr (statusOffset n)) s t
          ∧ t.attention.queue 6 = (if s.journal.lowMark + 1 = s.credit then
              queueNotice (s.attention.queue 6) .journalCreditLow else s.attention.queue 6)
          ∧ OtherQueues 6 s t
          ∧ SameBut [.mem, .lines, .answerQueue, .contexts, .queues] s t)

/-- The expiries of a line's timers that end no call: ring-gone returns the line to IDLE with a missed call
counted, up to 15 (R26); the polite time's makes a pending POLITE HANG_UP deliverable (R11); and the
clearing time's ends CLEARING with NO_ACK marked and the forced command withdrawn (R17). None does
anything before its time has run out. That a time stands at 0 until its expiry is taken, and that an
expiry not due changes nothing, are read from the rules (log 5), and so is the absent polite time of an
expired command (log 18). -/
def Obligations.LineTimersExpire : Prop :=
  (∀ (n : LineNo) (s : State), Running s →
      ((s.line n).state = .ringing → (s.line n).ringGone = some 0 →
        Completes (.ringGoneExpiry n) s fun t =>
          t.answerQueue = s.answerQueue.filter (· != n)
          ∧ t.line n = { s.line n with
              state := .idle, ringGone := none, lastCarrier := false, lastRing := false,
              missed := min ((s.line n).missed + 1) 15 }
          ∧ OtherLines n s t ∧ SameBut [.lines, .answerQueue] s t)
      ∧ ((s.line n).state ≠ .ringing ∨ (s.line n).ringGone ≠ some 0 →
        Completes (.ringGoneExpiry n) s fun t => SameBut [] s t))
  ∧ (∀ (n : LineNo) (s : State), Running s →
      (∀ f, (s.line n).forced = some f → f.politeLeft = some 0 →
        Completes (.politeTimeExpiry n) s fun t =>
          t.line n = { s.line n with forced := some { f with politeLeft := none } }
          ∧ OtherLines n s t ∧ SameBut [.lines] s t)
      ∧ ((∀ f, (s.line n).forced = some f → f.politeLeft ≠ some 0) →
        Completes (.politeTimeExpiry n) s (SameBut [] s))
      ∧ (∀ c, (s.line n).state = .clearing → (s.line n).clearing = some c → c.timeLeft = 0 →
        Completes (.clearingTimeExpiry n) s fun t =>
          let r := { s.line n with
            forced := none, clearing := none, sticky := (s.line n).sticky ||| 0b10000#5 }
          t.line n = (match c.modeAfter with
            | .watched => { r with state := .idle, lastCarrier := false, lastRing := false }
            | .off => { r with state := .off }
            | .passive => { r with state := .passive })
          ∧ OtherLines n s t ∧ SameBut [.lines] s t)
      ∧ ((s.line n).state ≠ .clearing
          ∨ (∀ c, (s.line n).clearing = some c → 0 < c.timeLeft) →
        Completes (.clearingTimeExpiry n) s (SameBut [] s)))

/-! ## Status words -/

/-- Carrier rising on an IDLE or RINGING line that is WATCHED is refused (R6): a rude HANG_UP, CLEARING and
REJECTED(UNSOLICITED), in every plan state, the speed class set from the word (R4). On a line in
ANSWERING it is the answered call (R33): NAME, the answer timer gone, an undelivered ANSWER withdrawn,
the sign-on timer started and PROMPT_NAME(CONNECT) given. -/
def Obligations.CarrierRisingIsRefusedOrAnswered : Prop :=
  (∀ (n : LineNo) (w : Word) (s : State), Running s → MemoryCanonical s →
      ((s.line n).state = .idle ∨ (s.line n).state = .ringing) → (s.line n).mode = .watched →
      w.getLsbD 0 = true → (s.line n).lastCarrier = false →
      Completes (.statusWrite n w) s fun t =>
        let slot := requestHangUp s.plan.politeLimit (s.line n).forced .rude
        t.line n = { (s.line n).cleared slot with
            speed := statusSpeed w, lastCarrier := true, lastRing := w.getLsbD 1 }
        ∧ OtherLines n s t
        ∧ t.answerQueue = s.answerQueue.filter (· != n)
        ∧ GivenOnly (.rejected n .unsolicited) s t
        ∧ t.readMem (s.areaAddr (statusOffset n)) = w ∧ OtherWords (s.areaAddr (statusOffset n)) s t
        ∧ SameBut [.mem, .lines, .answerQueue, .queues] s t)
  ∧ (∀ (n : LineNo) (k : CtxNo) (w : Word) (s : State), Running s → MemoryCanonical s →
      (s.line n).state = .answering → (s.line n).context = some k →
      w.getLsbD 0 = true → (s.line n).lastCarrier = false →
      Completes (.statusWrite n w) s fun t =>
        t.line n = { s.line n with
            state := .name, answer := none, forced := withdrawAnswer (s.line n).forced,
            speed := statusSpeed w, lastCarrier := true, lastRing := w.getLsbD 1 }
        ∧ OtherLines n s t
        ∧ t.ctx k = { s.ctx k with signOnTime := some (s.plan.signOnLimit * 100) }
        ∧ OtherContexts k s t
        ∧ GivenOnly (.promptConnect n) s t
        ∧ t.readMem (s.areaAddr (statusOffset n)) = w ∧ OtherWords (s.areaAddr (statusOffset n)) s t
        ∧ SameBut [.mem, .lines, .contexts, .queues] s t)

/-- Carrier doubt on a line in NAME, PASSWORD, CHECKING or SIGNED_ON (R7, R8): a fall starts it, carrier
within it ends it with GLITCH, which a session's fault summary takes too, and more writes without
carrier neither restart nor lengthen it. -/
def Obligations.ACarrierFallStartsADoubt : Prop :=
  ∀ (n : LineNo) (w : Word) (s : State), Running s → MemoryCanonical s →
    ((s.line n).state = .name ∨ (s.line n).state = .password ∨ (s.line n).state = .checking
      ∨ (s.line n).state = .signedOn) →
    let seen := { s.line n with lastCarrier := w.getLsbD 0, lastRing := w.getLsbD 1 }
    ((s.line n).doubt = none → w.getLsbD 0 = false → (s.line n).lastCarrier = true →
      Completes (.statusWrite n w) s fun t =>
        t.line n = { seen with doubt := some s.plan.carrierHold }
        ∧ OtherLines n s t ∧ OtherWords (s.areaAddr (statusOffset n)) s t
        ∧ t.readMem (s.areaAddr (statusOffset n)) = w ∧ SameBut [.mem, .lines] s t)
    ∧ ((s.line n).doubt ≠ none → w.getLsbD 0 = true →
      Completes (.statusWrite n w) s fun t =>
        t.line n = { seen with doubt := none, sticky := (s.line n).sticky ||| 0b01000#5 }
        ∧ ((s.line n).state = .signedOn → t.session n = (s.session n).map fun x =>
            { x with faults := x.faults ||| 0b1000#4 })
        ∧ ((s.line n).state ≠ .signedOn → t.session n = s.session n)
        ∧ OtherLines n s t ∧ OtherSessions n s t
        ∧ OtherWords (s.areaAddr (statusOffset n)) s t
        ∧ t.readMem (s.areaAddr (statusOffset n)) = w ∧ SameBut [.mem, .lines, .sessions] s t)
    ∧ ((s.line n).doubt ≠ none → w.getLsbD 0 = false →
      Completes (.statusWrite n w) s fun t =>
        t.line n = seen ∧ OtherLines n s t ∧ OtherWords (s.areaAddr (statusOffset n)) s t
        ∧ t.readMem (s.areaAddr (statusOffset n)) = w ∧ SameBut [.mem, .lines] s t)
    ∧ ((s.line n).doubt = none → w.getLsbD 0 = (s.line n).lastCarrier →
      Completes (.statusWrite n w) s fun t =>
        t.line n = seen ∧ OtherLines n s t ∧ OtherWords (s.areaAddr (statusOffset n)) s t
        ∧ t.readMem (s.areaAddr (statusOffset n)) = w ∧ SameBut [.mem, .lines] s t)

/-- A status write that is no ring arrival and shows no carrier rising, on the other lines (R2, R4, R5, R16):
nothing but memory in PASSIVE; last-seen carrier and ring in OFF, ANSWERING and IDLE; the ring-gone
timer restarted by ring in RINGING; and in CLEARING the end of it once the acknowledge was seen and
carrier is clear. That a rise in CLEARING keeps the speed class, and that R16's test follows the setting
of last-seen carrier, are read from the rules (log 10). -/
def Obligations.AQuietStatusWriteIsOnlySeen : Prop :=
  ∀ (n : LineNo) (w : Word) (s : State), Running s → MemoryCanonical s →
    let seen := { s.line n with lastCarrier := w.getLsbD 0, lastRing := w.getLsbD 1 }
    let quiet := fun (r : LineRecord) => Completes (.statusWrite n w) s fun t =>
      t.line n = r ∧ OtherLines n s t ∧ OtherWords (s.areaAddr (statusOffset n)) s t
      ∧ t.readMem (s.areaAddr (statusOffset n)) = w ∧ SameBut [.mem, .lines] s t
    ((s.line n).state = .passive → quiet (s.line n))
    ∧ ((s.line n).state = .off → quiet seen)
    ∧ (w.getLsbD 0 = false ∨ (s.line n).lastCarrier = true →
        ((s.line n).state = .answering → quiet seen)
        ∧ ((s.line n).state = .idle →
            w.getLsbD 1 = false ∨ (s.line n).lastRing = true ∨ s.plan.state ≠ .planned →
            quiet seen)
        ∧ ((s.line n).state = .ringing → quiet (if w.getLsbD 1 then
            { seen with ringGone := some (s.plan.ringGoneTime * 100) } else seen)))
    ∧ (∀ c, (s.line n).state = .clearing → (s.line n).clearing = some c →
        (c.ackSeen = false ∨ w.getLsbD 0 = true → quiet seen)
        ∧ (c.ackSeen = true → w.getLsbD 0 = false → quiet (match c.modeAfter with
            | .watched => { seen with
                clearing := none, state := .idle, lastCarrier := false, lastRing := false }
            | .off => { seen with clearing := none, state := .off }
            | .passive => { seen with clearing := none, state := .passive })))

/-! ## The end of a call -/

/-- The events that clear a dialogue, each with its reason and its HANG_UP, and what the clear does (R8, R13,
R19, R20, R34, R36, R42), the grants it makes room for included (R36 step 6). The line stands on no
answer queue, as R24 has it. That an expiry is due while its time stands at 0 is read from the rules
(log 5). -/
def Obligations.TheCausesOfADialogueClear : Prop :=
  ∀ (n : LineNo) (k : CtxNo) (s : State), Running s → n ∉ s.answerQueue →
    (s.line n).context = some k →
    ((s.line n).state = .answering ∨ (s.line n).state = .name ∨ (s.line n).state = .password
      ∨ (s.line n).state = .checking) →
    ((s.line n).doubt = some 0 →
      Completes (.carrierDoubtExpiry n) s (DialogueCleared n k .carrierLost (some .rude) s))
    ∧ ((s.line n).state = .answering → (s.line n).answer = some 0 →
      Completes (.answerTimerExpiry n) s (DialogueCleared n k .noCarrier (some .rude) s))
    ∧ ((s.ctx k).holder = some n → (s.ctx k).signOnTime = some 0 →
      Completes (.signOnTimeExpiry k) s (DialogueCleared n k .signOnTimeout (some .rude) s))
    ∧ Completes (.processorHangUp n) s
        (DialogueCleared n k .processorClear none (s.writeArea (commandOffset n) 0x0002#16))
    ∧ (∀ w : Word, w.getLsbD 2 = false → w.extractLsb' 4 2 = 1#2 ∨ w.extractLsb' 4 2 = 2#2 →
      Completes (.hangRequest n w) s (DialogueCleared n k .forced (some .rude) s))
    ∧ (∀ (w : Word) (m : LineMode), w.getLsbD 2 = true → w.extractLsb' 4 2 = 0#2 →
      settingMode w = some m → (s.line n).mode ≠ m →
      Completes (.modeLoad n w) s (DialogueCleared n k .lineOff (some .rude)
        (s.updLine n fun r => { r with mode := m })))

/-- The events that close a session, each with its reason and its HANG_UP, and what the close does (R8, R13,
R19, R20, R114, R116 to R118). That an expiry is due while its time stands at 0, and the idle limit while
the idle minutes stand at it, are read from the rules (log 5). -/
def Obligations.TheCausesOfASessionClose : Prop :=
  ∀ (n : LineNo) (x : Session) (a : Account) (s : State), Running s →
    (s.line n).state = .signedOn → s.session n = some x → s.slot x.slot = some a →
    ((s.line n).doubt = some 0 →
      Completes (.carrierDoubtExpiry n) s (SessionClosed n x .carrierLost (some .rude) s))
    ∧ Completes (.processorHangUp n) s
        (SessionClosed n x .logoff none (s.writeArea (commandOffset n) 0x0002#16))
    ∧ (∀ (w : Word) (m : Manner), w.getLsbD 2 = false →
      w.extractLsb' 4 2 = (match m with | .polite => 1#2 | .rude => 2#2) →
      Completes (.hangRequest n w) s (SessionClosed n x .forced (some m) s))
    ∧ (∀ (w : Word) (m : LineMode), w.getLsbD 2 = true → w.extractLsb' 4 2 = 0#2 →
      settingMode w = some m → (s.line n).mode ≠ m →
      Completes (.modeLoad n w) s (SessionClosed n x .lineOff (some .polite)
        (s.updLine n fun r => { r with mode := m })))
    ∧ (∀ c, x.grace = some c → c.left = 0 →
      Completes (.graceExpiry n) s (SessionClosed n x
        (if c.noBudget then .noBudget else .bandBarred) (some .polite) s))
    ∧ (a.cls ≠ .operator → (s.line n).idle = s.plan.idleLimit →
      Completes (.idleLimit n) s (SessionClosed n x .idle (some .polite) s))

/-- An expiry that is not due changes nothing: no doubt, answer time or sign-on time at 0, no grace at 0, no
idle minutes at the limit, an OPERATOR's idle minutes (R3, R114, R116; log 5). -/
def Obligations.ExpiriesNotDueChangeNothing : Prop :=
  ∀ (n : LineNo) (k : CtxNo) (s : State), Running s →
    ((s.line n).doubt ≠ some 0 → Completes (.carrierDoubtExpiry n) s (SameBut [] s))
    ∧ ((s.line n).state ≠ .answering ∨ (s.line n).answer ≠ some 0 →
        Completes (.answerTimerExpiry n) s (SameBut [] s))
    ∧ ((s.ctx k).holder = none ∨ (s.ctx k).signOnTime ≠ some 0 →
        Completes (.signOnTimeExpiry k) s (SameBut [] s))
    ∧ ((∀ x c, s.session n = some x → x.grace = some c → 0 < c.left) →
        Completes (.graceExpiry n) s (SameBut [] s))
    ∧ ((∀ x a, s.session n = some x → s.slot x.slot = some a →
          a.cls = .operator ∨ (s.line n).idle ≠ s.plan.idleLimit) →
        Completes (.idleLimit n) s (SameBut [] s))

/-! ## The command-word handshake and the line cells -/

/-- A scanner read of a command word (R2, R11): the forced command, when it awaits acknowledge or is
deliverable, overlays the word and then awaits acknowledge; else the read passes. That a delivered
command and one whose polite time has expired hold no polite time is read from the rules (log 18). -/
def Obligations.AForcedCommandOverlaysTheRead : Prop :=
  ∀ (n : LineNo) (s : State), Running s →
    ((s.line n).state = .off ∨ (s.line n).state = .passive ∨ (s.line n).forced = none →
      Completes (.commandWordRead n) s fun t =>
        t.pins.bd = s.readArea (commandOffset n) ∧ SameBut [.bd] s t)
    ∧ (∀ f, (s.line n).state ≠ .off → (s.line n).state ≠ .passive → (s.line n).forced = some f →
      (∀ d, f.awaiting = some d → Completes (.commandWordRead n) s fun t =>
        t.pins.bd = (match d with | .answer => 0x0001#16 | .hangUp => 0x0002#16)
        ∧ SameBut [.bd] s t)
      ∧ (f.awaiting = none →
          f.manner = .rude ∨ (s.line n).txPut = (s.line n).txTake ∨ f.politeLeft = none →
          Completes (.commandWordRead n) s fun t =>
            t.pins.bd = (match f.kind with | .answer => 0x0001#16 | .hangUp => 0x0002#16)
            ∧ t.line n = { s.line n with
                forced := some { f with awaiting := some f.kind, politeLeft := none } }
            ∧ OtherLines n s t ∧ SameBut [.bd, .lines] s t)
      ∧ (f.awaiting = none → f.manner = .polite → (s.line n).txPut ≠ (s.line n).txTake →
          f.politeLeft ≠ none → Completes (.commandWordRead n) s fun t =>
            t.pins.bd = s.readArea (commandOffset n) ∧ SameBut [.bd] s t))

/-- A scanner write to a command word (R2, R12, R16): taken while an acknowledge is awaited, ending the
command it acknowledges, and else passed to memory; in CLEARING the acknowledge of the hang-up is seen,
and CLEARING ends if carrier is clear. A processor HANG_UP on a line with no dialogue and no session
only passes (R13). -/
def Obligations.AnAcknowledgeIsTakenOrPasses : Prop :=
  ∀ (n : LineNo) (w : Word) (s : State), Running s → MemoryCanonical s →
    let a := s.areaAddr (commandOffset n)
    let ended := fun (r : LineRecord) => if r.clearingDone then r.endClearing else r
    (∀ f d, (s.line n).state ≠ .off → (s.line n).state ≠ .passive → (s.line n).forced = some f →
      f.awaiting = some d → Completes (.acknowledge n w) s fun t =>
        t.line n = ended { s.line n with
            forced := if f.kind = d then none else some { f with awaiting := none }
            clearing := if (s.line n).state = .clearing ∧ d = .hangUp then
                (s.line n).clearing.map fun c => { c with ackSeen := true }
              else (s.line n).clearing }
        ∧ OtherLines n s t ∧ SameBut [.lines] s t)
    ∧ ((s.line n).state = .off ∨ (s.line n).state = .passive
        ∨ (∀ f, (s.line n).forced = some f → f.awaiting = none) →
      Completes (.acknowledge n w) s fun t =>
        t.line n = ended { s.line n with
            clearing := if (s.line n).state = .clearing ∧ (s.line n).forced = none then
                (s.line n).clearing.map fun c => { c with ackSeen := true }
              else (s.line n).clearing }
        ∧ OtherLines n s t ∧ t.readMem a = w ∧ OtherWords a s t ∧ SameBut [.mem, .lines] s t)
    ∧ ((s.line n).state = .idle ∨ (s.line n).state = .ringing ∨ (s.line n).state = .clearing
        ∨ (s.line n).state = .off ∨ (s.line n).state = .passive →
      Completes (.processorHangUp n) s fun t =>
        t.readMem a = 0x0002#16 ∧ OtherWords a s t ∧ SameBut [.mem] s t)

/-- R14: the put and take indices take the low six bits of the written value, in every mode and state, and
both writes pass to memory; every other cycle at the two cells passes with no effect on the record. -/
def Obligations.TransmitIndicesTakeSixBits : Prop :=
  ∀ (n : LineNo) (w : Word) (s : State), Running s → MemoryCanonical s →
    Completes (.transmitPutWrite n w) s (fun t =>
      t.line n = { s.line n with txPut := w.extractLsb' 0 6 } ∧ OtherLines n s t
      ∧ t.readMem (s.areaAddr (BitVec.ofNat 15 (0x2000 + n.val))) = w
      ∧ OtherWords (s.areaAddr (BitVec.ofNat 15 (0x2000 + n.val))) s t
      ∧ SameBut [.mem, .lines] s t)
    ∧ Completes (.transmitTakeWrite n w) s (fun t =>
      t.line n = { s.line n with txTake := w.extractLsb' 0 6 } ∧ OtherLines n s t
      ∧ t.readMem (s.areaAddr (BitVec.ofNat 15 (0x2040 + n.val))) = w
      ∧ OtherWords (s.areaAddr (BitVec.ofNat 15 (0x2040 + n.val))) s t
      ∧ SameBut [.mem, .lines] s t)
    ∧ (∀ c : Cycle,
      s.areaOffset c.addr = some (BitVec.ofNat 15 (0x2000 + n.val))
          ∧ (c.write = false ∨ c.master = .scanner)
        ∨ s.areaOffset c.addr = some (BitVec.ofNat 15 (0x2040 + n.val))
          ∧ (c.write = false ∨ c.master = .processor) →
      (s.classify c).action = .pass ∧ SameBut [.mem] s (s.classify c).state
      ∧ (c.write = false → (s.classify c).data = s.readMem c.addr ∧ (s.classify c).state = s)
      ∧ (c.write = true → (s.classify c).state.readMem c.addr = c.data
          ∧ OtherWords c.addr s (s.classify c).state))

/-- A setting write that ends no call (R18 to R20): an unassigned code refuses the whole write; a mode load
moves a line out of OFF, PASSIVE, IDLE or RINGING at once, changes the mode to take after CLEARING, and
does nothing for the mode the line has; a HANG request stops a RINGING line, makes a pending hang-up
rude in CLEARING, and is ignored in IDLE, OFF and PASSIVE; and a write with both does one after the
other. -/
def Obligations.SettingWritesLoadModesAndHangUp : Prop :=
  ∀ (n : LineNo) (w : Word) (s : State), Running s →
    let refused := Latched .processor (BitVec.ofNat 15 (0x100 + n.val)) s
    (w.getLsbD 2 = true → w.extractLsb' 0 2 = 3#2 ∨ w.extractLsb' 4 2 = 3#2 →
      Completes (.modeLoad n w) s refused)
    ∧ (w.getLsbD 2 = false → w.extractLsb' 4 2 = 3#2 → Completes (.hangRequest n w) s refused)
    ∧ (∀ m, w.getLsbD 2 = true → w.extractLsb' 4 2 = 0#2 → settingMode w = some m →
      ((s.line n).mode = m → Completes (.modeLoad n w) s (SameBut [] s))
      ∧ ((s.line n).mode ≠ m →
          (s.line n).state = .off ∨ (s.line n).state = .passive ∨ (s.line n).state = .idle
            ∨ (s.line n).state = .ringing →
          Completes (.modeLoad n w) s fun t =>
            t.line n = (match m with
              | .watched => { s.line n with
                  mode := .watched, state := .idle, lastCarrier := false, lastRing := false,
                  ringGone := if (s.line n).state = .ringing then none else (s.line n).ringGone }
              | .off => { s.line n with
                  mode := .off, state := .off,
                  ringGone := if (s.line n).state = .ringing then none else (s.line n).ringGone }
              | .passive => { s.line n with
                  mode := .passive, state := .passive,
                  ringGone := if (s.line n).state = .ringing then none else (s.line n).ringGone })
            ∧ OtherLines n s t
            ∧ t.answerQueue = (if (s.line n).state = .ringing then
                s.answerQueue.filter (· != n) else s.answerQueue)
            ∧ SameBut [.lines, .answerQueue] s t)
      ∧ ((s.line n).mode ≠ m → (s.line n).state = .clearing →
          Completes (.modeLoad n w) s fun t =>
            t.line n = { s.line n with
              mode := m, clearing := (s.line n).clearing.map fun c => { c with modeAfter := m } }
            ∧ OtherLines n s t ∧ SameBut [.lines] s t))
    ∧ (∀ h, w.getLsbD 2 = false → settingHang w = .request h →
      ((s.line n).state = .ringing → Completes (.hangRequest n w) s fun t =>
        t.line n = { s.line n with
          state := .idle, ringGone := none, lastCarrier := false, lastRing := false }
        ∧ OtherLines n s t ∧ t.answerQueue = s.answerQueue.filter (· != n)
        ∧ SameBut [.lines, .answerQueue] s t)
      ∧ ((s.line n).state = .clearing → h = .rude → (s.line n).forced ≠ none →
          Completes (.hangRequest n w) s fun t =>
            t.line n = { s.line n with
              forced := requestHangUp s.plan.politeLimit (s.line n).forced .rude }
            ∧ OtherLines n s t ∧ SameBut [.lines] s t)
      ∧ ((s.line n).state = .clearing → h = .polite ∨ (s.line n).forced = none →
          Completes (.hangRequest n w) s (SameBut [] s))
      ∧ ((s.line n).state = .idle ∨ (s.line n).state = .off ∨ (s.line n).state = .passive →
          Completes (.hangRequest n w) s (SameBut [] s)))
    ∧ (∀ m h, w.getLsbD 2 = true → settingMode w = some m → settingHang w = .request h →
      exec (.modeLoad n w) s = .next ((s.modeLoaded n m).hangRequested n h).refreshAttn)

/-- R21: a read of session status word 0 returns the line summary in the layout of R170, clears the sticky
marks and sets the missed-call count to 0. -/
def Obligations.SessionStatusReadClearsTheMarks : Prop :=
  ∀ (n : LineNo) (s : State), Running s → (s.line n).missed ≤ 15 →
    Completes (.sessionStatusRead n) s fun t =>
      t.pins.bd = BitVec.ofBool (s.line n).forced.isSome ++ BitVec.ofNat 4 (s.line n).missed
        ++ (s.line n).sticky ++ BitVec.ofNat 2 (s.line n).speed.val
        ++ BitVec.ofNat 4 (match (s.line n).state with
          | .off => 0 | .passive => 1 | .idle => 2 | .ringing => 3 | .answering => 4 | .name => 5
          | .password => 6 | .checking => 7 | .clearing => 9
          | .signedOn => if (s.session n).any (fun x => x.grace.isSome) then 10 else 8)
      ∧ t.line n = { s.line n with sticky := 0#5, missed := 0 }
      ∧ OtherLines n s t ∧ SameBut [.bd, .lines] s t

/-! ## Receive entries -/

/-- A receive entry outside NAME and PASSWORD (R2, R9, R51): it passes to memory as written; its marks join
the sticky marks but in PASSIVE; and on a SIGNED_ON line they join the session's fault summary and the
activity latch is set. -/
def Obligations.AnEntryAddsItsMarks : Prop :=
  ∀ (n : LineNo) (i : Fin 32) (w : Word) (s : State), Running s → MemoryCanonical s →
    let a := s.areaAddr (BitVec.ofNat 15 (0x400 + 32 * n.val + i.val))
    let marked := { s.line n with
      sticky := (s.line n).sticky ||| (w.extractLsb' 8 3).setWidth 5 }
    ((s.line n).state = .passive → Completes (.receiveEntry n i w) s fun t =>
      t.readMem a = w ∧ OtherWords a s t ∧ SameBut [.mem] s t)
    ∧ ((s.line n).state = .off ∨ (s.line n).state = .idle ∨ (s.line n).state = .ringing
        ∨ (s.line n).state = .clearing ∨ (s.line n).state = .answering
        ∨ (s.line n).state = .checking →
      Completes (.receiveEntry n i w) s fun t =>
        t.line n = marked ∧ OtherLines n s t
        ∧ t.readMem a = w ∧ OtherWords a s t ∧ SameBut [.mem, .lines] s t)
    ∧ ((s.line n).state = .signedOn → Completes (.receiveEntry n i w) s fun t =>
        t.line n = { marked with activity := true } ∧ OtherLines n s t
        ∧ t.session n = (s.session n).map (fun x =>
            { x with faults := x.faults ||| (w.extractLsb' 8 3).setWidth 4 })
        ∧ OtherSessions n s t
        ∧ t.readMem a = w ∧ OtherWords a s t ∧ SameBut [.mem, .lines, .sessions] s t)

/-- R46: while a line is in PASSWORD, an entry whose character's low seven bits lie in 21h to 7Eh, or that
carries a mark, reaches memory with the fill character in place of its character and its marks as
written, so that a printable character never reaches memory; every other entry, and every entry of a
line in another state, passes as written. The altered entry keeps its meaning: a character is stored
as typed, a marked entry counts as noise (the eighth, which clears the dialogue, is
ABreakRestartsAndNoiseCounts's), and a BREAK restarts the dialogue. -/
def Obligations.APasswordNeverReachesMemory : Prop :=
  ∀ (n : LineNo) (i : Fin 32) (w : Word) (s : State),
    Running s → MemoryCanonical s → FillUnprintable s →
    let a := s.areaAddr (BitVec.ofNat 15 (0x400 + 32 * n.val + i.val))
    let typed := (0x21 ≤ (w.extractLsb' 0 7).toNat ∧ (w.extractLsb' 0 7).toNat ≤ 0x7E)
    Completes (.receiveEntry n i w) s fun t =>
      OtherWords a s t
      ∧ ((s.line n).state = .password → typed ∨ w.extractLsb' 8 3 ≠ 0#3 →
          t.readMem a = w.extractLsb' 8 8 ++ s.fill)
      ∧ ((s.line n).state = .password → typed →
          (t.readMem a).extractLsb' 0 7 ≠ w.extractLsb' 0 7)
      ∧ ((s.line n).state ≠ .password ∨ ¬ typed ∧ w.extractLsb' 8 3 = 0#3 → t.readMem a = w)
      ∧ (∀ k, (s.line n).state = .password → (s.line n).context = some k →
          (typed → w.extractLsb' 8 3 = 0#3 → (s.ctx k).password.length < 12 →
            (t.ctx k).password = (s.ctx k).password ++ [(w.extractLsb' 0 7).setWidth 8])
          ∧ (w.extractLsb' 8 3 ≠ 0#3 → (w.getLsbD 9 = false ∨ w.extractLsb' 0 8 ≠ 0#8) →
              (s.ctx k).noise < 7 → (t.ctx k).noise = (s.ctx k).noise + 1)
          ∧ (w.getLsbD 9 = true → w.extractLsb' 0 8 = 0#8 → (t.line n).state = .name))

/-- The editing table of NAME and PASSWORD (R43, R44, R47): what an entry without marks, other than CR,
does to the context's buffer, by the low seven bits of its character. -/
def Obligations.TypingEditsTheBuffers : Prop :=
  ∀ (n : LineNo) (i : Fin 32) (w : Word) (k : CtxNo) (s : State), Running s →
    (s.line n).context = some k → w.extractLsb' 8 3 = 0#3 →
    let c : Byte := (w.extractLsb' 0 7).setWidth 8
    let x := s.ctx k
    let typed := (0x21 ≤ c.toNat ∧ c.toNat ≤ 0x7E)
    let becomes := fun (y : Context) => Completes (.receiveEntry n i w) s fun t =>
      t.ctx k = y ∧ OtherContexts k s t
      ∧ OtherWords (s.areaAddr (BitVec.ofNat 15 (0x400 + 32 * n.val + i.val))) s t
      ∧ SameBut [.mem, .contexts] s t
    ((s.line n).state = .name →
      (typed → x.name.length < 12 → becomes { x with
        name := x.name ++ [if 0x61 ≤ c.toNat ∧ c.toNat ≤ 0x7A then c - 0x20#8 else c] })
      ∧ (typed → 12 ≤ x.name.length → becomes { x with nameLong := true })
      ∧ (c = 0x08#8 ∨ c = 0x7F#8 → becomes { x with name := x.name.dropLast })
      ∧ (c = 0x15#8 → becomes { x with name := [], nameLong := false })
      ∧ (c.toNat ≤ 0x20 → c ≠ 0x08#8 → c ≠ 0x15#8 → c ≠ 0x0D#8 → becomes x))
    ∧ ((s.line n).state = .password →
      (typed → x.password.length < 12 → becomes { x with password := x.password ++ [c] })
      ∧ (typed → 12 ≤ x.password.length → becomes { x with passwordLong := true })
      ∧ (c = 0x08#8 ∨ c = 0x7F#8 → becomes { x with password := x.password.dropLast })
      ∧ (c = 0x15#8 → becomes { x with password := [], passwordLong := false })
      ∧ (c.toNat ≤ 0x20 → c ≠ 0x08#8 → c ≠ 0x15#8 → c ≠ 0x0D#8 → becomes x))

/-- A CR without marks in NAME (R45) and in PASSWORD (R48): ignored on an empty buffer; in NAME an overlong
name is rejected (R56, R57) and any other opens the password phase; in PASSWORD the lookup is submitted
and the password forgotten. -/
def Obligations.ACrEndsTheNameOrThePassword : Prop :=
  ∀ (n : LineNo) (i : Fin 32) (w : Word) (k : CtxNo) (s : State), Running s → MemoryCanonical s →
    (s.line n).context = some k → w.extractLsb' 8 3 = 0#3 → w.extractLsb' 0 7 = 0x0D#7 →
    let o := BitVec.ofNat 15 (0x400 + 32 * n.val + i.val)
    let passes := fun (t : State) => t.readMem (s.areaAddr o) = w ∧ OtherWords (s.areaAddr o) s t
    let x := s.ctx k
    let q := Request.lookup x.name (checkWord x.password) x.passwordLong k n
    ((s.line n).state = .name →
      (x.name = [] → Completes (.receiveEntry n i w) s fun t => passes t ∧ SameBut [.mem] s t)
      ∧ (x.name ≠ [] → x.nameLong = true → x.attempts < 2 →
        Completes (.receiveEntry n i w) s fun t =>
          t.ctx k = { x with
            name := [], nameLong := false, password := [], passwordLong := false,
            attempts := x.attempts + 1, lookup := .none }
          ∧ OtherContexts k s t ∧ GivenOnly (.rejected n .nameTooLong) s t
          ∧ passes t ∧ SameBut [.mem, .contexts, .queues] s t)
      ∧ (x.name ≠ [] → x.nameLong = true → 2 ≤ x.attempts → n ∉ s.answerQueue →
        Completes (.receiveEntry n i w) s fun t =>
          passes t ∧ DialogueCleared n k .attempts (some .rude) (s.writeArea o w) t)
      ∧ (x.name ≠ [] → x.nameLong = false → Completes (.receiveEntry n i w) s fun t =>
          t.line n = { s.line n with state := .password } ∧ OtherLines n s t
          ∧ t.ctx k = { x with password := [], passwordLong := false } ∧ OtherContexts k s t
          ∧ GivenOnly (.promptPassword n) s t
          ∧ passes t ∧ SameBut [.mem, .lines, .contexts, .queues] s t))
    ∧ ((s.line n).state = .password →
      (x.password = [] → Completes (.receiveEntry n i w) s fun t => passes t ∧ SameBut [.mem] s t)
      ∧ (x.password ≠ [] → s.directory.inService ≠ none →
        Completes (.receiveEntry n i w) s fun t =>
          t.line n = { s.line n with state := .checking } ∧ OtherLines n s t
          ∧ t.ctx k = { x with password := [], passwordLong := false, lookup := .queued }
          ∧ OtherContexts k s t
          ∧ t.directory.queue = s.directory.queue ++ [q]
          ∧ t.directory.inService = s.directory.inService
          ∧ passes t ∧ SameBut [.mem, .lines, .contexts, .requests] s t)
      ∧ (x.password ≠ [] → s.directory.inService = none → s.directory.queue = [] →
          x.holder = some n → Completes (.receiveEntry n i w) s fun t =>
          t.line n = { s.line n with state := .checking } ∧ OtherLines n s t
          ∧ t.ctx k = { x with password := [], passwordLong := false, lookup := .inService }
          ∧ OtherContexts k s t
          ∧ t.directory.queue = [] ∧ t.directory.inService = some q
          ∧ passes t ∧ SameBut [.mem, .lines, .contexts, .requests] s t))

/-- A BREAK in NAME or PASSWORD restarts the dialogue (R49), and any other marked entry is noise, the
eighth of which clears it (R50). -/
def Obligations.ABreakRestartsAndNoiseCounts : Prop :=
  ∀ (n : LineNo) (i : Fin 32) (w : Word) (k : CtxNo) (s : State), Running s → MemoryCanonical s →
    (s.line n).context = some k → (s.line n).state = .name ∨ (s.line n).state = .password →
    let o := BitVec.ofNat 15 (0x400 + 32 * n.val + i.val)
    let a := s.areaAddr o
    let v := if (s.line n).state = .password then w.extractLsb' 8 8 ++ s.fill else w
    let marked := { s.line n with
      sticky := (s.line n).sticky ||| (w.extractLsb' 8 3).setWidth 5 }
    let x := s.ctx k
    (w.getLsbD 9 = true → w.extractLsb' 0 8 = 0#8 → Completes (.receiveEntry n i w) s fun t =>
      t.line n = { marked with state := .name } ∧ OtherLines n s t
      ∧ t.ctx k = { x with name := [], nameLong := false, password := [], passwordLong := false }
      ∧ OtherContexts k s t ∧ GivenOnly (.promptRestart n) s t
      ∧ t.readMem a = v ∧ OtherWords a s t
      ∧ SameBut [.mem, .lines, .contexts, .queues] s t)
    ∧ (w.extractLsb' 8 3 ≠ 0#3 → w.getLsbD 9 = false ∨ w.extractLsb' 0 8 ≠ 0#8 →
      (x.noise < 7 → Completes (.receiveEntry n i w) s fun t =>
        t.line n = marked ∧ OtherLines n s t
        ∧ t.ctx k = { x with noise := x.noise + 1 } ∧ OtherContexts k s t
        ∧ t.readMem a = v ∧ OtherWords a s t ∧ SameBut [.mem, .lines, .contexts] s t)
      ∧ (7 ≤ x.noise → n ∉ s.answerQueue → Completes (.receiveEntry n i w) s fun t =>
        t.readMem a = v ∧ OtherWords a s t
        ∧ DialogueCleared n k .noisy (some .rude)
            (((s.writeArea o v).updLine n fun _ => marked).updCtx k fun c =>
              { c with noise := c.noise + 1 }) t))

/-! ## The directory -/

/-- The directory serves one request at a time, from the head of its queue (R70): a service starts only
while none is in service, and a lookup's context, still held and QUEUED, becomes IN_SERVICE. That the
service starts in the event that brings it about, so that this command finds one to start in no run, and
that a start not due changes nothing, are read from the rules (log 5). -/
def Obligations.RequestsAreServedInOrder : Prop :=
  ∀ s : State, Running s →
    (s.directory.inService ≠ none ∨ s.directory.queue = [] →
      Completes .requestServiceStart s (SameBut [] s))
    ∧ (∀ q rest, s.directory.inService = none → s.directory.queue = q :: rest →
      Completes .requestServiceStart s fun t =>
        t.directory.queue = rest ∧ t.directory.inService = some q
        ∧ (∀ record, q = .commit record → SameBut [.requests] s t)
        ∧ (∀ name check long k n, q = .lookup name check long k n →
            t.ctx k = (if (s.ctx k).holder = some n ∧ (s.line n).state = .checking
                ∧ (s.ctx k).lookup = .queued then { s.ctx k with lookup := .inService }
              else s.ctx k)
            ∧ OtherContexts k s t ∧ SameBut [.contexts, .requests] s t))

/-- R72: a lookup's outcome by its checks in order, and the slot whose name matched. -/
def Obligations.ALookupIsJudgedInOrder : Prop :=
  ∀ (s : State) (name : List Byte) (check : Word) (long : Bool),
    ((∀ i, (s.slot i).map (·.name) ≠ some name) →
      s.lookupOutcome name check long = (.reject .noSuchName, none))
    ∧ (∀ i a, s.slot i = some a → a.name = name →
        (∀ j, j < i → (s.slot j).map (·.name) ≠ some name) →
        s.lookupOutcome name check long =
          (if a.lock ≠ .none then .reject .accountLocked
          else if check ≠ a.check ∨ long = true then .reject .badPassword
          else if a.cls ≠ .operator ∧ (s.permit a.cls).signOn.getLsbD s.meter.band.val = false then
            .reject .classBarred
          else if a.openSessions = a.maxSessions then .reject .sessionLimit
          else if a.cls ≠ .operator ∧ a.budget = 0 then .reject .noBudget
          else .accept, some i))

/-- The completion of a lookup that its context still waits for, with the outcome ACCEPT (R54, R55, R73,
R109): the slot counts the session, the line is SIGNED_ON with a new session record, judged for a low
budget and a barring band, the context is FREE with its lookup NONE (R52), SIGNED is given, grants are
evaluated, and the next waiting request is in service (R70). -/
def Obligations.AnAcceptedLookupOpensASession : Prop :=
  ∀ (name : List Byte) (check : Word) (long : Bool) (k : CtxNo) (n : LineNo) (i : SlotNo)
      (a : Account) (s : State), Running s →
    s.directory.inService = some (.lookup name check long k n) →
    s.lookupOutcome name check long = (.accept, some i) → s.slot i = some a →
    (s.ctx k).holder = some n → (s.line n).state = .checking → (s.ctx k).lookup = .inService →
    n ∉ s.answerQueue →
    Completes .lookupCompletion s fun t =>
      let low : Bool := a.cls != .operator && decide (a.budget ≤ s.plan.warnThreshold)
      let barred : Bool := a.cls != .operator && !(s.permit a.cls).hold.getLsbD s.meter.band.val
      let q5 := s.attention.queue 5
      let q5 := if low then queueNotice q5 (.warning n .budgetLow) else q5
      let q5 := if barred then queueNotice q5 (.warning n .bandBarred) else q5
      let r := { s.line n with state := .signedOn, activity := false, idle := 0, context := none }
      let c := { s.ctx k with holder := none, signOnTime := none, lookup := .none }
      let x : Session :=
        { slot := i, openDay := s.meter.day, openMinute := s.meter.minute, seconds := 0,
          units := Vector.replicate 4 0, overrun := 0, charge := 0,
          grace := (if barred then
            some { noBudget := false, bandBarred := true, left := s.plan.graceSeconds }
            else none),
          budgetWarned := low, idleWarned := false, faults := 0#4 }
      t.slot i = some { a with openSessions := a.openSessions + 1, failures := 0 }
      ∧ OtherSlots i s t
      ∧ t.line n = r
      ∧ (∃ u : State, GrantsMade (((s.setLine n r).setCtx k c).setSession n (some x)) u
          ∧ u.directory.queue = s.directory.queue ∧ u.directory.inService = none
          ∧ (NoOneRings s → u.ctx k = c ∧ OtherContexts k s u ∧ OtherLines n s u
              ∧ u.answerQueue = [] ∧ u.attention.queue 6 = s.attention.queue 6)
          ∧ NextServed u t)
      ∧ t.session n = some x ∧ OtherSessions n s t
      ∧ t.attention.queue 1 = queueNotice (s.attention.queue 1) (.signed n (s.line n).speed)
      ∧ t.attention.queue 3 = withoutLine n (s.attention.queue 3)
      ∧ t.attention.queue 4 = withoutLine n (s.attention.queue 4)
      ∧ t.attention.queue 5 = q5
      ∧ (∀ j, j = 0 ∨ j = 2 ∨ j = 7 → t.attention.queue j = s.attention.queue j)
      ∧ SameBut [.lines, .answerQueue, .contexts, .slots, .requests, .sessions, .queues] s t

/-- The completion of a lookup with a rejection, or one whose context was released (R54, R56 to R58, R73,
R74): only BAD_PASSWORD changes a slot, counting a failure and locking at the threshold, whoever holds
the context; an applied rejection sends the caller back to NAME twice and clears the dialogue the third
time; a released context and its line are left alone, an ACCEPT of it included. Then the next waiting
request is in service (R70, R73 step 4). -/
def Obligations.ARejectedLookupCountsAnAttempt : Prop :=
  ∀ (name : List Byte) (check : Word) (long : Bool) (k : CtxNo) (n : LineNo) (s : State), Running s →
    s.directory.inService = some (.lookup name check long k n) →
    let applies := (s.ctx k).holder = some n ∧ (s.line n).state = .checking
      ∧ (s.ctx k).lookup = .inService
    let owned := fun (reason : RejectReason) (oi : Option SlotNo) (t : State) =>
      (∀ i a, reason = .badPassword → oi = some i → s.slot i = some a →
        t.slot i = some { a with
            failures := min (a.failures + 1) 15
            lock := if s.plan.lockThreshold ≤ min (a.failures + 1) 15 ∧ a.lock = .none then
                .timed s.plan.lockTime else a.lock }
        ∧ OtherSlots i s t)
      ∧ (reason ≠ .badPassword → t.directory.slots = s.directory.slots)
    let ended := fun (u : State) =>
      u.directory.queue = s.directory.queue ∧ u.directory.inService = none
    (∀ reason oi, s.lookupOutcome name check long = (.reject reason, oi) →
      (applies → (s.ctx k).attempts < 2 →
        Completes .lookupCompletion s fun t => ∃ u : State,
          owned reason oi u
          ∧ u.ctx k = { s.ctx k with
              name := [], nameLong := false, password := [], passwordLong := false,
              attempts := (s.ctx k).attempts + 1, lookup := .none }
          ∧ OtherContexts k s u
          ∧ u.line n = { s.line n with state := .name } ∧ OtherLines n s u
          ∧ GivenOnly (.rejected n reason) s u ∧ ended u
          ∧ SameBut [.lines, .contexts, .slots, .requests, .queues] s u
          ∧ NextServed u t)
      ∧ (applies → 2 ≤ (s.ctx k).attempts → n ∉ s.answerQueue →
        (s.line n).context = some k → Completes .lookupCompletion s fun t =>
          ∃ u v : State, owned reason oi u ∧ ended u
            ∧ u.ctx k = { s.ctx k with lookup := .none } ∧ OtherContexts k s u
            ∧ SameBut [.slots, .contexts, .requests] s u
            ∧ DialogueCleared n k .attempts (some .rude) u v ∧ NextServed v t)
      ∧ (¬ applies → Completes .lookupCompletion s fun t => ∃ u : State,
          owned reason oi u ∧ ended u ∧ SameBut [.slots, .requests] s u ∧ NextServed u t))
    ∧ (∀ oi, s.lookupOutcome name check long = (.accept, oi) → ¬ applies →
      Completes .lookupCompletion s fun t => ∃ u : State,
        ended u ∧ SameBut [.requests] s u ∧ NextServed u t)

/-- The census (R80 to R82): a start makes it ACTIVE with its condition from slot 0; a read returns the
lowest slot at or above the cursor that meets the condition and moves past it, and the end word when
none does, which ends the census, or when it is INACTIVE. -/
def Obligations.TheCensusWalksTheSlots : Prop :=
  ∀ s : State, Running s →
    let meets := fun (a : Account) =>
      (s.directory.census.condition = .alarm → a.alarm = true)
      ∧ (s.directory.census.condition = .locked → a.lock ≠ .none)
      ∧ (s.directory.census.condition = .active → 0 < a.openSessions)
    let candidate := fun (i : SlotNo) =>
      s.directory.census.cursor ≤ i.val ∧ ∃ a, s.slot i = some a ∧ meets a
    (∀ w : Word, Completes (.censusStart w) s fun t =>
      t.directory.census =
        { active := true, cursor := 0,
          condition := (if w.extractLsb' 0 2 = 0#2 then .alarm
            else if w.extractLsb' 0 2 = 1#2 then .locked
            else if w.extractLsb' 0 2 = 2#2 then .active else .any) }
      ∧ SameBut [.census] s t)
    ∧ (s.directory.census.active = false → Completes .censusRead s fun t =>
        t.pins.bd = 0#16 ∧ SameBut [.bd] s t)
    ∧ (s.directory.census.active = true → (∀ i, ¬ candidate i) →
        Completes .censusRead s fun t =>
          t.pins.bd = 0#16 ∧ t.directory.census = { s.directory.census with active := false }
          ∧ SameBut [.bd, .census] s t)
    ∧ (∀ i a, s.directory.census.active = true → candidate i → (∀ j, j < i → ¬ candidate j) →
        s.slot i = some a → a.openSessions ≤ 4 → Completes .censusRead s fun t =>
          t.pins.bd = 1#1 ++ BitVec.ofBool a.alarm ++ BitVec.ofNat 3 a.openSessions
            ++ BitVec.ofNat 11 i.val
          ∧ t.directory.census = { s.directory.census with cursor := i.val + 1 }
          ∧ SameBut [.bd, .census] s t)

/-! ## Directory loading -/

/-- A staging write passes to memory in every state of the buffer; it empties a FRESH buffer and is then
captured, joins a FILLING one, and is refused by a PENDING one (R86). -/
def Obligations.StagingWritesAreCaptured : Prop :=
  ∀ (i : Fin 16) (w : Word) (s : State), Running s → MemoryCanonical s →
    let a := s.areaAddr (BitVec.ofNat 15 (0x200 + i.val))
    let g := s.directory.staging
    Completes (.stagingWrite i w) s fun t =>
      t.readMem a = w ∧ OtherWords a s t
      ∧ (g.state = .fresh →
          t.directory.staging.state = .filling ∧ t.directory.staging.outcome = g.outcome
          ∧ t.directory.staging.record.last = i
          ∧ (∀ j : Fin 16,
              t.directory.staging.record.words[j] = (if j = i then w else 0#16)
              ∧ t.directory.staging.record.fill[j] = decide (j = i))
          ∧ SameBut [.mem, .staging] s t)
      ∧ (g.state = .filling →
          t.directory.staging.state = .filling ∧ t.directory.staging.outcome = g.outcome
          ∧ t.directory.staging.record.last = (if g.record.last < i then i else g.record.last)
          ∧ (∀ j : Fin 16,
              t.directory.staging.record.words[j] = (if j = i then w else g.record.words[j])
              ∧ t.directory.staging.record.fill[j] = (decide (j = i) || g.record.fill[j]))
          ∧ SameBut [.mem, .staging] s t)
      ∧ (g.state = .pending →
          Latched .processor (BitVec.ofNat 15 (0x200 + i.val))
            (s.writeArea (BitVec.ofNat 15 (0x200 + i.val)) w) t)

/-- A commit write is judged by the buffer in R89's order: refused while PENDING, MISMATCH when its end
offset or its slot differs, GAPS when the record is not gapless or ends below offset 10, and accepted
otherwise, its request joining the queue or, with the directory idle, starting at once. -/
def Obligations.CommitWritesAreJudged : Prop :=
  ∀ (w : Word) (s : State), Running s →
    let g := s.directory.staging
    let word0 := if g.record.fill[0] then g.record.words[0] else 0#16
    let authorized := (w.extractLsb' 12 4).toNat = g.record.last.val
      ∧ w.extractLsb' 0 11 = word0.extractLsb' 0 11
    let whole := (∀ j : Fin 16, j ≤ g.record.last → g.record.fill[j] = true)
      ∧ 10 ≤ g.record.last.val
    (g.state = .pending → Completes (.commitWrite w) s (Latched .processor 0x0CA#15 s))
    ∧ (g.state ≠ .pending → ¬ authorized → Completes (.commitWrite w) s fun t =>
        t.directory.staging = { g with outcome := .mismatch }
        ∧ GivenOnly (.adminCommit .mismatch) s t ∧ SameBut [.staging, .queues] s t)
    ∧ (g.state ≠ .pending → authorized → ¬ whole → Completes (.commitWrite w) s fun t =>
        t.directory.staging = { g with outcome := .gaps }
        ∧ GivenOnly (.adminCommit .gaps) s t ∧ SameBut [.staging, .queues] s t)
    ∧ (g.state ≠ .pending → authorized → whole →
        (s.directory.inService ≠ none → Completes (.commitWrite w) s fun t =>
          t.directory.staging = { g with state := .pending, outcome := .pending }
          ∧ t.directory.queue = s.directory.queue ++ [.commit g.record]
          ∧ t.directory.inService = s.directory.inService
          ∧ SameBut [.staging, .requests] s t)
        ∧ (s.directory.inService = none → s.directory.queue = [] →
          Completes (.commitWrite w) s fun t =>
            t.directory.staging = { g with state := .pending, outcome := .pending }
            ∧ t.directory.queue = [] ∧ t.directory.inService = some (.commit g.record)
            ∧ SameBut [.staging, .requests] s t))

/-- A commit's outcome by R90's checks in order, with the fields judged as R91 says: a name of one to
twelve allowed characters followed by zero bytes only, an assigned class, 1 to 4 sessions, a non-zero
account number; words outside the fill set count as 0 (R85). -/
def Obligations.ACommitIsJudgedInOrder : Prop :=
  ∀ (s : State) (r : Staged),
    let word := fun (i : Fin 16) => if r.fill[i] then r.words[i] else 0#16
    let code := (word 0).extractLsb' 12 2
    let flag := fun (b : Nat) => (word 1).getLsbD b
    let a := s.slot r.target
    let opened := (a.map (·.openSessions)).getD 0
    let bytes := ([2, 3, 4, 5, 6, 7] : List (Fin 16)).flatMap fun i =>
      [(word i).extractLsb' 0 8, (word i).extractLsb' 8 8]
    let allowed := fun (c : Byte) => (0x41 ≤ c.toNat ∧ c.toNat ≤ 0x5A)
      ∨ (0x30 ≤ c.toNat ∧ c.toNat ≤ 0x39) ∨ c = 0x2D#8 ∨ c = 0x2E#8
    let nameOk := ∃ len : Fin 13, 0 < len.val ∧ (∀ c ∈ bytes.take len.val, allowed c)
      ∧ (∀ c ∈ bytes.drop len.val, c = 0#8)
    let classOk := ((word 9).extractLsb' 0 3).toNat < 4
    let maxOk := 1 ≤ ((word 9).extractLsb' 8 3).toNat ∧ ((word 9).extractLsb' 8 3).toNat ≤ 4
    let numberOk := word 11 ≠ 0#16
    let taken := ∃ j, j ≠ r.target ∧ (s.slot j).map (·.name) = some (bytes.takeWhile (· != 0#8))
    let loadOk := nameOk ∧ classOk ∧ maxOk ∧ numberOk
    let alterOk := (flag 0 = true → nameOk) ∧ (flag 2 = true → classOk)
      ∧ (flag 4 = true → maxOk) ∧ (flag 5 = true → numberOk)
    r.target.val = ((word 0).extractLsb' 0 11).toNat
    ∧ (code = 3#2 → s.commitOutcome r = .badField)
    ∧ (code = 0#2 →
      (0 < opened → s.commitOutcome r = .slotBusy)
      ∧ (opened = 0 → ¬ loadOk → s.commitOutcome r = .badField)
      ∧ (opened = 0 → loadOk → taken → s.commitOutcome r = .nameTaken)
      ∧ (opened = 0 → loadOk → ¬ taken → s.commitOutcome r = .done))
    ∧ (code = 1#2 →
      (a = none → s.commitOutcome r = .slotEmpty)
      ∧ (a ≠ none → ¬ alterOk → s.commitOutcome r = .badField)
      ∧ (a ≠ none → alterOk → flag 0 = true → taken → s.commitOutcome r = .nameTaken)
      ∧ (a ≠ none → alterOk → flag 0 = false ∨ ¬ taken → flag 4 = true →
          ((word 9).extractLsb' 8 3).toNat < opened → s.commitOutcome r = .slotBusy)
      ∧ (a ≠ none → alterOk → flag 0 = false ∨ ¬ taken →
          flag 4 = false ∨ opened ≤ ((word 9).extractLsb' 8 3).toNat →
          s.commitOutcome r = .done))
    ∧ (code = 2#2 →
      (a = none → s.commitOutcome r = .slotEmpty)
      ∧ (a ≠ none → 0 < opened → s.commitOutcome r = .slotBusy)
      ∧ (a ≠ none → opened = 0 → s.commitOutcome r = .done))

/-- A commit's completion (R92 to R96, R99): a refusal changes no slot; LOAD writes the whole slot, ALTER the
flagged fields and then the graces of the slot's sessions, with a WARNING for each reason newly added,
in order of line number; ERASE empties it; the buffer takes the
outcome, ADMIN(COMMIT, outcome) is given, and the next waiting request is in service. With no commit in
service nothing happens (read from the rules, log 5). Where an ALTER newly adds both reasons,
WARNING(BAND_BARRED) is the last given (the model's choice, log 28), and a grace whose one reason gives
way to the other keeps its seconds (read from R94, log 29). -/
def Obligations.ACommitCompletionWritesTheSlot : Prop :=
  ∀ (r : Staged) (s : State), Running s →
    let o := s.commitOutcome r
    let word := fun (i : Fin 16) => if r.fill[i] then r.words[i] else 0#16
    let flag := fun (b : Nat) => (word 1).getLsbD b
    let alarm := decide ((word 10).toNat ≤ s.plan.warnThreshold)
    let reported := fun (t : State) =>
      t.directory.queue = s.directory.queue ∧ t.directory.inService = none
      ∧ t.directory.staging = (if s.directory.staging.resetInService then
          { state := .fresh, record := Staged.empty, outcome := o, resetInService := false }
        else { s.directory.staging with
          state := if o = .done then .fresh else .filling, outcome := o })
      ∧ t.attention.queue 7 = queueNotice (s.attention.queue 7) (.adminCommit o)
      ∧ (∀ j, j ≠ 5 → j ≠ 7 → t.attention.queue j = s.attention.queue j)
    (s.directory.inService = some (.commit r) →
      (o ≠ .done → Completes .commitCompletion s fun t => ∃ u : State,
        reported u ∧ u.attention.queue 5 = s.attention.queue 5
        ∧ SameBut [.staging, .requests, .queues] s u ∧ NextServed u t)
      ∧ (o = .done → r.op = some .load → Completes .commitCompletion s fun t => ∃ u : State,
        reported u ∧ u.attention.queue 5 = s.attention.queue 5
        ∧ u.slot r.target = some
            { name := r.name, number := word 11, cls := classOfCode ((word 9).extractLsb' 0 3).toNat,
              check := word 8, budget := (word 10).toNat, basis := (word 10).toNat, units := 0,
              alarm := alarm, maxSessions := ((word 9).extractLsb' 8 3).toNat, openSessions := 0,
              failures := 0, lock := .none }
        ∧ OtherSlots r.target s u ∧ SameBut [.slots, .staging, .requests, .queues] s u
        ∧ NextServed u t)
      ∧ (o = .done → r.op = some .erase → Completes .commitCompletion s fun t => ∃ u : State,
        reported u ∧ u.attention.queue 5 = s.attention.queue 5
        ∧ u.slot r.target = none ∧ OtherSlots r.target s u
        ∧ SameBut [.slots, .staging, .requests, .queues] s u ∧ NextServed u t)
      ∧ (∀ a, o = .done → r.op = some .alter → s.slot r.target = some a →
        Completes .commitCompletion s fun t =>
          let b : Account :=
            { name := if flag 0 then r.name else a.name
              number := if flag 5 then word 11 else a.number
              cls := if flag 2 then classOfCode ((word 9).extractLsb' 0 3).toNat else a.cls
              check := if flag 1 then word 8 else a.check
              budget := if flag 3 then (word 10).toNat else a.budget
              basis := if flag 3 then (word 10).toNat else a.basis
              units := if flag 3 then 0 else a.units
              alarm := if flag 3 then alarm else a.alarm
              maxSessions := if flag 4 then ((word 9).extractLsb' 8 3).toNat else a.maxSessions
              openSessions := a.openSessions
              failures := if flag 6 then 0 else a.failures
              lock := if flag 7 then .held else if flag 6 then .none else a.lock }
          let gone : Bool := b.cls != .operator && b.budget == 0
          let barred : Bool := b.cls != .operator && !(s.permit b.cls).hold.getLsbD s.meter.band.val
          let warnings := fun (n : LineNo) => match s.session n with
            | none => []
            | some x =>
              if x.slot = r.target then
                (if (flag 2 || flag 3) && gone && !x.grace.any (·.noBudget) then
                  [WarningKind.budgetGone] else [])
                ++ (if flag 2 && barred && !x.grace.any (·.bandBarred) then
                  [WarningKind.bandBarred] else [])
              else []
          ∃ u : State, reported u ∧ u.slot r.target = some b ∧ OtherSlots r.target s u
          ∧ (∀ n, u.session n = (s.session n).map fun x =>
              if x.slot = r.target then
                { x with grace :=
                    if flag 2 then graceJudged s.plan.graceSeconds x.grace gone barred
                    else if flag 3 then graceAfter s.plan.graceSeconds x.grace .noBudget gone
                    else x.grace }
              else x)
          ∧ u.attention.queue 5 = warnLines warnings (s.attention.queue 5)
          ∧ (flag 2 = false → flag 3 = false → u.attention.queue 5 = s.attention.queue 5)
          ∧ SameBut [.slots, .staging, .requests, .sessions, .queues] s u ∧ NextServed u t))
    ∧ ((∀ r, s.directory.inService ≠ some (.commit r)) →
      Completes .commitCompletion s (SameBut [] s))

/-! ## The Meter Unit -/

/-- A short tick (R3, R42, R100, R101): every running timer of every line and every held context is
lowered by one, and the hundredth makes a second tick due; while the divisor is absent there is no
tick. That the second tick stands due until it is taken, and a timer at 0 until its expiry is, are read
from the rules (log 5). -/
def Obligations.AShortTickRunsTheTimers : Prop :=
  ∀ s : State, Running s →
    (s.meter.divisor = none → Completes .shortTick s (SameBut [] s))
    ∧ (s.meter.divisor ≠ none → Completes .shortTick s fun t =>
      (∀ n, t.line n = { s.line n with
        doubt := (s.line n).doubt.map (· - 1)
        ringGone := (s.line n).ringGone.map (· - 1)
        answer := (s.line n).answer.map (· - 1)
        forced := (s.line n).forced.map fun f => { f with politeLeft := f.politeLeft.map (· - 1) }
        clearing := (s.line n).clearing.map fun c => { c with timeLeft := c.timeLeft - 1 } })
      ∧ (∀ k, t.ctx k = { s.ctx k with
          signOnTime := if (s.ctx k).holder = none then (s.ctx k).signOnTime
            else (s.ctx k).signOnTime.map (· - 1) })
      ∧ (s.meter.shortTicks + 1 ≠ 100 → t.meter.shortTicks = s.meter.shortTicks + 1
          ∧ t.meter.secondsDue = s.meter.secondsDue)
      ∧ (s.meter.shortTicks + 1 = 100 → t.meter.shortTicks = 0
          ∧ t.meter.secondsDue = s.meter.secondsDue + 1)
      ∧ t.meter.divisor = s.meter.divisor ∧ t.meter.secondTicks = s.meter.secondTicks
      ∧ t.meter.minutesDue = s.meter.minutesDue
      ∧ SameBut [.lines, .contexts, .timebase] s t)

/-- A second tick that is due visits every session in line order, each as the visits before it left the
part (R100, R110); one that is not due does nothing. That a second tick stands due until it is taken,
and that one not due does nothing, are read from the rules (log 5). What a visit does is the next
statement. -/
def Obligations.ASecondTickVisitsEverySession : Prop :=
  ∀ s : State, Running s →
    (s.meter.secondsDue = 0 → Completes .secondTick s (SameBut [] s))
    ∧ (0 < s.meter.secondsDue →
      let counted := { s with meter := { s.meter with
        secondsDue := s.meter.secondsDue - 1
        secondTicks := if s.meter.secondTicks + 1 = 60 then 0 else s.meter.secondTicks + 1
        minutesDue := if s.meter.secondTicks + 1 = 60 then s.meter.minutesDue + 1
          else s.meter.minutesDue } }
      let visited := (List.finRange 64).foldl (fun t n => match t.session n with
        | none => t
        | some x => t.visitSecond (match s.session n with
            | some y => y.grace.isSome
            | none => false) n x) counted
      exec .secondTick s = .next visited.refreshAttn
      ∧ SameBut [.lines, .slots, .sessions, .posting, .queues] counted visited)

/-- The visit of a session at a second tick (R110 to R112, R114): connect seconds rise; with an OPERATOR
account or a rate of 0 nothing else; else the charge counter rises and at the rate a unit is charged,
from the budget with its threshold and exhaustion judged for every session of the slot, each giving its
WARNINGs in order of line number, or as overrun; and a grace present at the start of the tick loses a second, closing the session at 0. -/
def Obligations.AVisitChargesASession : Prop :=
  ∀ (n : LineNo) (x : Session) (a : Account) (s : State),
    s.session n = some x → s.slot x.slot = some a →
    let rate := s.rate s.meter.band (s.line n).speed
    let later := { x with seconds := min (x.seconds + 1) 4294967295 }
    let alone := fun (y : Session) (t : State) =>
      t.session n = some y ∧ OtherSessions n s t ∧ SameBut [.sessions] s t ∧ t.pins = s.pins
    (a.cls = .operator ∨ rate = 0 → ∀ b, alone later (s.visitSecond b n x))
    ∧ (a.cls ≠ .operator → x.charge + 1 < rate →
        alone { later with charge := x.charge + 1 } (s.visitSecond false n x))
    ∧ (a.cls ≠ .operator → 0 < rate → rate ≤ x.charge + 1 → a.budget = 0 →
        alone { later with charge := 0, overrun := min (x.overrun + 1) 65535 }
          (s.visitSecond false n x))
    ∧ (a.cls ≠ .operator → 0 < rate → rate ≤ x.charge + 1 → 0 < a.budget →
        let t := s.visitSecond false n x
        let reached : Bool := a.budget - 1 == s.plan.warnThreshold && !a.alarm
        let gone : Bool := a.budget - 1 == 0
        t.slot x.slot = some { a with
            budget := a.budget - 1, units := a.units + 1, alarm := a.alarm || reached }
        ∧ OtherSlots x.slot s t
        ∧ (∀ m, t.session m = (s.session m).map fun y =>
            let y := if m = n then { later with
                charge := 0
                units := x.units.set s.meter.band (min (x.units[s.meter.band] + 1) 65535) } else y
            if y.slot = x.slot then { y with
                budgetWarned := y.budgetWarned || reached
                grace := if gone then graceAfter s.plan.graceSeconds y.grace .noBudget true
                  else y.grace }
            else y)
        ∧ t.attention.queue 5 =
            warnLines (fun m => match s.session m with
                | none => []
                | some y =>
                  if y.slot = x.slot ∧ gone = true ∧ y.grace.any (·.noBudget) = false then
                    [.budgetGone] else [])
              (warnLines (fun m => match s.session m with
                | none => []
                | some y => if y.slot = x.slot ∧ reached = true then [.budgetLow] else [])
                (s.attention.queue 5))
        ∧ (reached = false → gone = false → t.attention = s.attention)
        ∧ OtherQueues 5 s t ∧ SameBut [.slots, .sessions, .queues] s t)
    ∧ (a.cls ≠ .operator → 0 < rate →
        let u := s.visitSecond false n x
        let t := s.visitSecond true n x
        ∃ y, u.session n = some y
          ∧ (y.grace = none → t = u)
          ∧ (∀ c, y.grace = some c → 1 < c.left →
              t.session n = some { y with grace := some { c with left := c.left - 1 } }
              ∧ OtherSessions n u t ∧ SameBut [.sessions] u t)
          ∧ (∀ c, y.grace = some c → c.left ≤ 1 →
              SessionClosed n { y with grace := some { c with left := 0 } }
                (if c.noBudget then .noBudget else .bandBarred) (some .polite) u t))

/-- A minute tick that is due advances the clock, re-evaluates the band, checks every session for idleness
and counts every TIMED lock down, ending those that reach 0 (R76, R102, R115, R116); the idle check of
one session; and a lock that stands at 0 ends. That a minute tick stands due until it is taken, that one
not due does nothing, and that LOCK_END acts on a TIMED lock that stands at 0 and on no other, are read
from the rules (log 5). Idle minutes that are both the warning and the limit, which plan word 9 shuts
out (R173), warn and then close: read from the order of R116's steps. -/
def Obligations.AMinuteTickAdvancesTheClock : Prop :=
  (∀ s : State, Running s →
    (s.meter.minutesDue = 0 → Completes .minuteTick s (SameBut [] s))
    ∧ (0 < s.meter.minutesDue → Completes .minuteTick s fun t =>
      t.meter.minute = (if s.meter.minute + 1 < 1440 then s.meter.minute + 1 else 0)
      ∧ t.meter.weekday = (if s.meter.minute + 1 < 1440 then s.meter.weekday
          else if s.meter.weekday + 1 < 7 then s.meter.weekday + 1 else 0)
      ∧ t.meter.day = (if s.meter.minute + 1 < 1440 then s.meter.day else s.meter.day + 1)
      ∧ t.meter.minutesDue = s.meter.minutesDue - 1
      ∧ t.meter.divisor = s.meter.divisor ∧ t.meter.shortTicks = s.meter.shortTicks
      ∧ t.meter.secondTicks = s.meter.secondTicks ∧ t.meter.secondsDue = s.meter.secondsDue
      ∧ t.meter.band = t.meter.evaluateBand
      ∧ (∀ i, (t.slot i).map (fun a => (a.lock, a.failures)) = (s.slot i).map fun a =>
          match a.lock with
          | .timed m => if m ≤ 1 then (.none, 0) else (.timed (m - 1), a.failures)
          | .none => (.none, a.failures)
          | .held => (.held, a.failures))
      ∧ (∃ u, BandJudged (fun _ => decide (u.meter.band ≠ s.meter.band)) s u
          ∧ SameBut [.clock, .timebase, .band, .sessions, .queues] s u
          ∧ (let v := (List.finRange 64).foldl (fun v n => match v.session n with
              | none => v
              | some x => v.idleCheck n x) u
            SameBut [.slots] v t
            ∧ ∀ i, t.slot i = (v.slot i).map fun a => match a.lock with
              | .timed m => if m ≤ 1 then { a with lock := .none, failures := 0 }
                else { a with lock := .timed (m - 1) }
              | .none => a
              | .held => a))
      ∧ SameBut [.clock, .timebase, .band, .lines, .slots, .sessions, .posting, .queues] s t))
  ∧ (∀ (n : LineNo) (x : Session) (a : Account) (s : State),
    s.session n = some x → s.slot x.slot = some a →
    let m := if (s.line n).activity then 0 else min ((s.line n).idle + 1) 120
    let checked := { s.line n with idle := m, activity := false }
    let t := s.idleCheck n x
    (a.cls = .operator → t = s)
    ∧ (a.cls ≠ .operator → m ≠ s.plan.idleLimit → m ≠ s.plan.idleWarn →
        t.line n = checked ∧ OtherLines n s t ∧ SameBut [.lines] s t)
    ∧ (a.cls ≠ .operator → m ≠ s.plan.idleLimit → m = s.plan.idleWarn →
        t.line n = checked ∧ OtherLines n s t
        ∧ t.session n = some { x with idleWarned := true } ∧ OtherSessions n s t
        ∧ GivenOnly (.warning n .idle) s t ∧ SameBut [.lines, .sessions, .queues] s t)
    ∧ (a.cls ≠ .operator → m = s.plan.idleLimit → m ≠ s.plan.idleWarn →
        SessionClosed n x .idle (some .polite) (s.updLine n fun _ => checked) t)
    ∧ (a.cls ≠ .operator → m = s.plan.idleLimit → m = s.plan.idleWarn →
        let y := { x with idleWarned := true }
        SessionClosed n y .idle (some .polite)
          (((s.updLine n fun _ => checked).give (.warning n .idle)).setSession n (some y)) t))
  ∧ (∀ (i : SlotNo) (s : State), Running s → Completes (.lockEnd i) s fun t =>
    t.slot i = (s.slot i).map (fun a =>
      if a.lock = .timed 0 then { a with lock := .none, failures := 0 } else a)
    ∧ OtherSlots i s t ∧ SameBut [.slots] s t)

/-- R105's evaluation, and the accepted clock writes that make it (R103, R115): both clock fields are set,
or a value out of range is refused; the band follows, and a band change judges every session. That a
day write re-evaluates too is R103's; with the tables rewritten since the last evaluation it can move
the band (log 16). -/
def Obligations.ClockWritesReevaluateTheBand : Prop :=
  (∀ (m : Meter) (b : BandNo),
    (m.weekend.getLsbD m.weekday = true → m.evaluateBand = 3)
    ∧ (m.weekend.getLsbD m.weekday = false →
      (m.bandStart b ≤ m.minute → (∀ c, m.bandStart c ≤ m.minute →
          m.bandStart c < m.bandStart b ∨ m.bandStart c = m.bandStart b ∧ c ≤ b) →
        m.evaluateBand = b)
      ∧ ((∀ c, m.minute < m.bandStart c) → (∀ c, m.bandStart c < m.bandStart b
          ∨ m.bandStart c = m.bandStart b ∧ c ≤ b) → m.evaluateBand = b)))
  ∧ (∀ (w : Word) (s : State), Running s →
    let changed := fun (t : State) =>
      t.meter.band = t.meter.evaluateBand
      ∧ BandJudged (fun _ => decide (t.meter.band ≠ s.meter.band)) s t
      ∧ SameBut [.clock, .band, .sessions, .queues] s t
    ((w.extractLsb' 0 11).toNat < 1440 → (w.extractLsb' 12 3).toNat < 7 →
      Completes (.clockMinuteWrite w) s fun t =>
        t.meter.minute = (w.extractLsb' 0 11).toNat ∧ t.meter.weekday = (w.extractLsb' 12 3).toNat
        ∧ t.meter.day = s.meter.day ∧ changed t)
    ∧ (1440 ≤ (w.extractLsb' 0 11).toNat ∨ 7 ≤ (w.extractLsb' 12 3).toNat →
      Completes (.clockMinuteWrite w) s (Latched .processor 0x0CE#15 s))
    ∧ Completes (.clockDayWrite w) s (fun t =>
      t.meter.day = w ∧ t.meter.minute = s.meter.minute ∧ t.meter.weekday = s.meter.weekday
      ∧ changed t))

/-- The writes of the Meter Unit's tables (R104, R106, R107): a start above 1439 and a rate above 3600 are
refused; the weekend set and both permit sets take what is written; and a permit write of STUDENT,
STAFF or GUEST judges the sessions of its class at once. -/
def Obligations.TableWritesTakeEffect : Prop :=
  (∀ (b : BandNo) (w : Word) (s : State), Running s →
    ((w.extractLsb' 0 11).toNat < 1440 → Completes (.bandStartWrite b w) s fun t =>
      (∀ c, t.meter.bandStart c =
        (if c = b then (w.extractLsb' 0 11).toNat else s.meter.bandStart c))
      ∧ t.meter.weekend = s.meter.weekend ∧ t.meter.tariffs = s.meter.tariffs
      ∧ t.meter.permits = s.meter.permits ∧ SameBut [.tables] s t)
    ∧ (1440 ≤ (w.extractLsb' 0 11).toNat → Completes (.bandStartWrite b w) s
      (Latched .processor (BitVec.ofNat 15 (0x0F0 + b.val)) s))
    ∧ Completes (.weekendWrite w) s (fun t =>
      t.meter.weekend = w.extractLsb' 0 7 ∧ t.meter.bandStarts = s.meter.bandStarts
      ∧ t.meter.tariffs = s.meter.tariffs ∧ t.meter.permits = s.meter.permits
      ∧ SameBut [.tables] s t))
  ∧ (∀ (b : BandNo) (v : SpeedNo) (w : Word) (s : State), Running s →
    ((w.extractLsb' 0 12).toNat ≤ 3600 → Completes (.tariffWrite b v w) s fun t =>
      (∀ c u, t.rate c u = (if c = b ∧ u = v then (w.extractLsb' 0 12).toNat else s.rate c u))
      ∧ t.meter.bandStarts = s.meter.bandStarts ∧ t.meter.weekend = s.meter.weekend
      ∧ t.meter.permits = s.meter.permits ∧ SameBut [.tables] s t)
    ∧ (3600 < (w.extractLsb' 0 12).toNat → Completes (.tariffWrite b v w) s
      (Latched .processor (BitVec.ofNat 15 (0x0E0 + 4 * b.val + v.val)) s)))
  ∧ (∀ (c : AccountClass) (w : Word) (s : State), Running s →
    Completes (.permitWrite c w) s fun t =>
      (∀ d, t.permit d = (if d = c then
        { signOn := w.extractLsb' 0 4, hold := w.extractLsb' 4 4 } else s.permit d))
      ∧ t.meter.bandStarts = s.meter.bandStarts ∧ t.meter.weekend = s.meter.weekend
      ∧ t.meter.tariffs = s.meter.tariffs
      ∧ BandJudged (fun d => decide (d = c)) s t
      ∧ SameBut [.tables, .sessions, .queues] s t)

/-! ## Attention -/

/-- A poll (R144, R145, R147, R150): the head entry of the highest-ranked pollable class is returned in
R171's layout and leaves its queue, into service or, in auto-done mode, not, with the class made lowest
if auto-rotate is on; with no class pollable the empty word is returned and nothing changes. -/
def Obligations.APollTakesTheHighestClass : Prop :=
  ∀ s : State, Running s →
    let a := s.attention
    let rank := fun (k : ClassNo) => (k.val + 7 - a.lowest.val) % 8
    let pollable := fun (k : ClassNo) =>
      a.queue k ≠ [] ∧ a.mask.getLsbD k.val = false ∧ a.served k = none
      ∧ (a.specialMask = true ∨ ∀ j, a.served j ≠ none → rank k < rank j)
    ((∀ k, ¬ pollable k) → Completes .poll s fun t =>
      t.pins.bd = 0#16 ∧ SameBut [.bd] s t)
    ∧ (∀ k e rest, pollable k → (∀ j, pollable j → rank k ≤ rank j) → a.queue k = e :: rest →
      Completes .poll s fun t =>
        t.pins.bd = 1#1 ++ BitVec.ofNat 3 e.cls.val ++ e.subject ++ BitVec.ofNat 6 e.detail
        ∧ t.attention.queue k = rest ∧ OtherQueues k s t
        ∧ (∀ j, j ≠ k → t.attention.served j = a.served j)
        ∧ t.attention.served k = (if a.autoDone then none else some e)
        ∧ t.attention.lowest = (if a.autoDone = true ∧ a.autoRotate = true then k else a.lowest)
        ∧ t.attention.mask = a.mask ∧ t.attention.autoDone = a.autoDone
        ∧ t.attention.autoRotate = a.autoRotate ∧ t.attention.specialMask = a.specialMask
        ∧ SameBut [.queues, .inService, .priority, .bd] s t)

/-- The attention commands (R148) and the mask and mode cells (R151, R152): a done ends its class's
in-service entry, a rotating done makes the class ended the lowest, both nothing where there is none to
end; set lowest always takes effect; the mask and the three flags take what is written. -/
def Obligations.AttentionCommandsActOnTheirClass : Prop :=
  ∀ (k : ClassNo) (w : Word) (s : State), Running s →
    let a := s.attention
    let rank := fun (k : ClassNo) => (k.val + 7 - a.lowest.val) % 8
    let ended := fun (j : ClassNo) (t : State) =>
      t.attention.served j = none ∧ (∀ i, i ≠ j → t.attention.served i = a.served i)
      ∧ t.attention.mask = a.mask ∧ t.attention.autoDone = a.autoDone
      ∧ t.attention.autoRotate = a.autoRotate ∧ t.attention.specialMask = a.specialMask
    ((∀ j, a.served j = none) → Completes .nonSpecificDone s (SameBut [] s)
      ∧ Completes .rotateOnNonSpecificDone s (SameBut [] s))
    ∧ (∀ j, a.served j ≠ none → (∀ i, a.served i ≠ none → rank j ≤ rank i) →
      Completes .nonSpecificDone s (fun t => ended j t ∧ SameBut [.inService] s t)
      ∧ Completes .rotateOnNonSpecificDone s (fun t =>
          ended j t ∧ t.attention.lowest = j ∧ SameBut [.inService, .priority] s t))
    ∧ Completes (.specificDone k) s (fun t => ended k t ∧ SameBut [.inService] s t)
    ∧ (a.served k = none → Completes (.rotateOnSpecificDone k) s (SameBut [] s))
    ∧ (a.served k ≠ none → Completes (.rotateOnSpecificDone k) s fun t =>
        ended k t ∧ t.attention.lowest = k ∧ SameBut [.inService, .priority] s t)
    ∧ Completes (.setLowest k) s (fun t =>
        t.attention = { a with lowest := k } ∧ SameBut [.priority] s t)
    ∧ Completes (.maskWrite w) s (fun t =>
        t.attention = { a with mask := w.extractLsb' 0 8 } ∧ SameBut [.priority] s t)
    ∧ Completes (.modeWrite w) s (fun t =>
        t.attention = { a with
          autoDone := w.getLsbD 0, autoRotate := w.getLsbD 1, specialMask := w.getLsbD 2 }
        ∧ SameBut [.priority] s t)

/-! ## The plan -/

/-- A plan start (R39, R41, R123, R154, R166): accepted when every line is OFF, PASSIVE, IDLE or RINGING, no
record is queued and none is being posted; it empties the answer queue, sets the fill character, takes
the journal's capacity and the Attention Controller back and begins the plan at word 2. Else it is
refused with ADMIN(PLAN, REFUSED). -/
def Obligations.APlanStartBeginsAtWordTwo : Prop :=
  ∀ (w : Word) (s : State), Running s →
    let allowed := (∀ n, (s.line n).state = .off ∨ (s.line n).state = .passive
        ∨ (s.line n).state = .idle ∨ (s.line n).state = .ringing)
      ∧ s.journal.queue = [] ∧ s.bus.owner ≠ .posting
    (allowed → Completes (.planStart w) s fun t =>
      (∀ n, t.line n = (if (s.line n).state = .ringing then { s.line n with
          state := .idle, ringGone := none, lastCarrier := false, lastRing := false }
        else s.line n))
      ∧ t.answerQueue = []
      ∧ t.fill = (if 0x21 ≤ (w.extractLsb' 0 7).toNat ∧ (w.extractLsb' 0 7).toNat ≤ 0x7E then
          0x20#8 else w.extractLsb' 0 8)
      ∧ t.journal = { s.journal with capacity := 0, head := 0, tail := 0, visible := 0 }
      ∧ t.attention = Attention.reset ∧ t.pins.attn = false
      ∧ t.plan = { s.plan with state := .planning 2 }
      ∧ SameBut [.lines, .answerQueue, .fill, .ring, .queues, .inService, .priority, .plan] s t)
    ∧ (¬ allowed → Completes (.planStart w) s fun t =>
      GivenOnly (.adminPlan .refused) s t ∧ SameBut [.queues] s t)

/-- The plan words (R101, R123, R167, R173): each in its range is applied and the next word follows, word 11
making the plan PLANNED with ADMIN(PLAN, DONE); one out of range breaks the plan with ADMIN(PLAN,
BROKEN) and changes no value; and one written in another plan state is refused and latched. -/
def Obligations.PlanWordsFollowInOrder : Prop :=
  ∀ (w : Word) (s : State), Running s →
    let at' := fun (lo len : Nat) => (w.extractLsb' lo len).toNat
    let ok := fun (k : Nat) =>
      (k = 2 ∧ 1000 ≤ w.toNat)
      ∨ (k = 3 ∧ at' 0 3 ≤ 4 ∧ at' 8 6 ≤ 63)
      ∨ (k = 4 ∧ 1 ≤ at' 0 8 ∧ at' 0 8 ≤ 255)
      ∨ (k = 5 ∧ 5 ≤ at' 0 8 ∧ at' 0 8 ≤ 255)
      ∨ (k = 6 ∧ 5 ≤ at' 0 8 ∧ at' 0 8 ≤ 60 ∧ 4 ≤ at' 8 8 ∧ at' 8 8 ≤ 30)
      ∨ (k = 7 ∧ 30 ≤ w.toNat ∧ w.toNat ≤ 600)
      ∨ (k = 8 ∧ 1 ≤ at' 0 4 ∧ at' 0 4 ≤ 15 ∧ 1 ≤ at' 4 12 ∧ at' 4 12 ≤ 1440)
      ∨ (k = 9 ∧ 1 ≤ at' 0 8 ∧ at' 8 8 ≤ 120 ∧ at' 0 8 < at' 8 8)
      ∨ (k = 10 ∧ 1 ≤ at' 0 6 ∧ at' 0 6 ≤ 60 ∧ 10 ≤ at' 6 10 ∧ at' 6 10 ≤ 600)
      ∨ k = 11
    (∀ k, s.plan.state = .planning k → ¬ ok k → Completes (.planWord w) s fun t =>
      t.plan = { s.plan with state := .unplanned }
      ∧ GivenOnly (.adminPlan .broken) s t ∧ SameBut [.plan, .queues] s t)
    ∧ (s.plan.state = .planning 2 → ok 2 → Completes (.planWord w) s fun t =>
      t.plan = { s.plan with state := .planning 3 }
      ∧ t.meter = { s.meter with divisor := some w.toNat } ∧ SameBut [.plan, .timebase] s t)
    ∧ (s.plan.state = .planning 3 → ok 3 → Completes (.planWord w) s fun t =>
      t.plan = { s.plan with state := .planning 4 }
      ∧ t.journal = { s.journal with capacity := 64 * 2 ^ at' 0 3, lowMark := at' 8 6 }
      ∧ SameBut [.plan, .ring] s t)
    ∧ (∀ k, 4 ≤ k → k ≤ 10 → s.plan.state = .planning k → ok k →
      Completes (.planWord w) s fun t =>
        SameBut [.plan] s t
        ∧ (k = 4 → t.plan = { s.plan with state := .planning 5, windowLength := at' 0 8 })
        ∧ (k = 5 → t.plan = { s.plan with state := .planning 6, carrierHold := at' 0 8 })
        ∧ (k = 6 → t.plan = { s.plan with
            state := .planning 7, answerTime := at' 0 8, ringGoneTime := at' 8 8 })
        ∧ (k = 7 → t.plan = { s.plan with state := .planning 8, signOnLimit := w.toNat })
        ∧ (k = 8 → t.plan = { s.plan with
            state := .planning 9, lockThreshold := at' 0 4, lockTime := at' 4 12 })
        ∧ (k = 9 → t.plan = { s.plan with
            state := .planning 10, idleWarn := at' 0 8, idleLimit := at' 8 8 })
        ∧ (k = 10 → t.plan = { s.plan with
            state := .planning 11, politeLimit := at' 0 6, graceSeconds := at' 6 10 }))
    ∧ (s.plan.state = .planning 11 → NoOneRings s → Completes (.planWord w) s fun t =>
      t.plan = { s.plan with state := .planned, warnThreshold := w.toNat }
      ∧ GivenOnly (.adminPlan .done) s t ∧ SameBut [.plan, .queues] s t)
    ∧ (s.plan.state = .unplanned ∨ s.plan.state = .planned →
      Completes (.planWord w) s (Latched .processor 0x0C4#15 s))

/-! ## Cycles and their rows -/

/-- A cycle's taking does what the row of its command does (R157; log 1): for each cell, the state after
the classification is the row's next state before ATTN follows, and a read's word is the one on BD. -/
def Obligations.ATakenCycleRunsItsRow : Prop :=
  ∀ (s : State) (addr : Addr) (o : Offset), Running s → s.areaOffset addr = some o →
    let wrote := fun (m : Master) (w : Word) (i : Instr) =>
      exec i s = .next (s.classify { master := m, addr := addr, write := true, data := w }).state.refreshAttn
    let read := fun (m : Master) (i : Instr) =>
      let c := s.classify { master := m, addr := addr, write := false, data := 0#16 }
      exec i s = .next (c.state.setBd c.data).refreshAttn
    (∀ (n : LineNo) (w : Word),
      (o = BitVec.ofNat 15 n.val → wrote .scanner w (.acknowledge n w)
        ∧ wrote .processor 0x0002#16 (.processorHangUp n) ∧ read .scanner (.commandWordRead n))
      ∧ (o = BitVec.ofNat 15 (0x040 + n.val) → wrote .scanner w (.statusWrite n w))
      ∧ (o = BitVec.ofNat 15 (0x100 + n.val) →
          wrote .processor w (if w.getLsbD 2 then .modeLoad n w else .hangRequest n w))
      ∧ (o = BitVec.ofNat 15 (0x300 + 4 * n.val) → read .processor (.sessionStatusRead n))
      ∧ (∀ i : Fin 32, o = BitVec.ofNat 15 (0x400 + 32 * n.val + i.val) →
          wrote .scanner w (.receiveEntry n i w))
      ∧ (o = BitVec.ofNat 15 (0x2000 + n.val) → wrote .processor w (.transmitPutWrite n w))
      ∧ (o = BitVec.ofNat 15 (0x2040 + n.val) → wrote .scanner w (.transmitTakeWrite n w)))
    ∧ (∀ w : Word,
      (o = 0x0C0#15 →
        (w.extractLsb' 8 3 = 1#3 → wrote .processor w .nonSpecificDone)
        ∧ (w.extractLsb' 8 3 = 3#3 → wrote .processor w .rotateOnNonSpecificDone)
        ∧ (∀ k : ClassNo, (w.extractLsb' 0 3).toNat = k.val →
            (w.extractLsb' 8 3 = 2#3 → wrote .processor w (.specificDone k))
            ∧ (w.extractLsb' 8 3 = 4#3 → wrote .processor w (.rotateOnSpecificDone k))
            ∧ (w.extractLsb' 8 3 = 5#3 → wrote .processor w (.setLowest k)))
        ∧ (w.extractLsb' 8 3 = 0#3 ∨ w.extractLsb' 8 3 = 6#3 ∨ w.extractLsb' 8 3 = 7#3 →
            Latched .processor 0x0C0#15 s
              (s.classify { master := .processor, addr := addr, write := true, data := w }).state)
        ∧ read .processor .poll)
      ∧ (o = 0x0C1#15 → wrote .processor w (.maskWrite w))
      ∧ (o = 0x0C2#15 → wrote .processor w (.modeWrite w))
      ∧ (o = 0x0C3#15 → wrote .processor w (.planStart w))
      ∧ (o = 0x0C4#15 → wrote .processor w (.planWord w))
      ∧ (o = 0x0C7#15 → wrote .processor w (.tailWrite w))
      ∧ (o = 0x0C8#15 → read .processor .latchRead)
      ∧ (o = 0x0C9#15 → wrote .processor w (.censusStart w) ∧ read .processor .censusRead)
      ∧ (o = 0x0CA#15 → wrote .processor w (.commitWrite w))
      ∧ (o = 0x0CE#15 → wrote .processor w (.clockMinuteWrite w))
      ∧ (o = 0x0CF#15 → wrote .processor w (.clockDayWrite w))
      ∧ (o = 0x0D0#15 → wrote .scanner w (.sweepMarker w))
      ∧ (o = 0x0F4#15 → wrote .processor w (.weekendWrite w))
      ∧ (∀ b v : Fin 4, o = BitVec.ofNat 15 (0x0E0 + 4 * b.val + v.val) →
          wrote .processor w (.tariffWrite b v w))
      ∧ (∀ b : Fin 4, o = BitVec.ofNat 15 (0x0F0 + b.val) →
          wrote .processor w (.bandStartWrite b w))
      ∧ (o = 0x0F5#15 → wrote .processor w (.permitWrite .student w))
      ∧ (o = 0x0F6#15 → wrote .processor w (.permitWrite .staff w))
      ∧ (o = 0x0F7#15 → wrote .processor w (.permitWrite .guest w))
      ∧ (o = 0x0F8#15 → wrote .processor w (.permitWrite .operator w))
      ∧ (∀ i : Fin 16, o = BitVec.ofNat 15 (0x200 + i.val) →
          wrote .processor w (.stagingWrite i w))
      ∧ (∀ m, refusesWrite m (region o) = true → wrote m w (.writeRefused m o)))

/-- The overlay reads that change nothing, in the layouts of R170 to R172 (R18, R22, R88, R103, R104, R106,
R107, R129, R137, R138, R151, R152, R163): each returns its block's state, and the part is as before. -/
def Obligations.OverlayReadsShowTheState : Prop :=
  ∀ (s : State) (addr : Addr) (o : Offset), s.areaOffset addr = some o →
    let g := s.directory.staging
    let shows := fun (v : Word) =>
      let c := s.classify { master := .processor, addr := addr, write := false, data := 0#16 }
      c.action = .overlay ∧ c.data = v ∧ c.state = s
    (∀ n : LineNo,
      (o = BitVec.ofNat 15 (0x100 + n.val) → shows (match (s.line n).mode with
        | .off => 0x0000#16 | .watched => 0x0001#16 | .passive => 0x0002#16))
      ∧ (o = BitVec.ofNat 15 (0x300 + 4 * n.val + 1) → shows (match s.session n with
        | some x => BitVec.ofNat 16 x.slot.val | none => 0xFFFF#16))
      ∧ (o = BitVec.ofNat 15 (0x300 + 4 * n.val + 2) → s.session n = none → shows 0#16)
      ∧ (o = BitVec.ofNat 15 (0x300 + 4 * n.val + 2) → ∀ x a, s.session n = some x →
          s.slot x.slot = some a → shows a.number)
      ∧ (o = BitVec.ofNat 15 (0x300 + 4 * n.val + 3) → shows (match s.session n with
        | some x => BitVec.ofNat 16
            (min (x.units[0] + x.units[1] + x.units[2] + x.units[3] + x.overrun) 65535)
        | none => 0#16)))
    ∧ (o = 0x0C1#15 → ∃ waiting : BitVec 8, shows (waiting ++ s.attention.mask)
        ∧ ∀ k : ClassNo, waiting.getLsbD k.val = !(s.attention.queue k).isEmpty)
    ∧ (o = 0x0C2#15 → ∃ serving : BitVec 8, shows (serving ++ 0#1
          ++ BitVec.ofNat 3 s.attention.lowest.val ++ 0#1 ++ BitVec.ofBool s.attention.specialMask
          ++ BitVec.ofBool s.attention.autoRotate ++ BitVec.ofBool s.attention.autoDone)
        ∧ ∀ k : ClassNo, serving.getLsbD k.val = (s.attention.served k).isSome)
    ∧ (o = 0x0C5#15 → (∀ k, s.plan.state = .planning k → k ≤ 11) →
        shows (BitVec.ofBool (s.credit == 0)
          ++ (match s.bus.latch.master with | .processor => 0#1 | .scanner => 1#1)
          ++ BitVec.ofBool s.bus.latch.more ++ BitVec.ofBool s.bus.latch.valid
          ++ BitVec.ofNat 4 ((List.finRange 8).filter fun k => (s.ctx k).holder.isSome).length
          ++ 0#2
          ++ (match s.plan.state with | .planning k => BitVec.ofNat 4 k | _ => 0#4)
          ++ (match s.plan.state with | .unplanned => 0#2 | .planning _ => 1#2 | .planned => 2#2)))
    ∧ (o = 0x0C6#15 → s.journal.head < 1024 → shows (BitVec.ofBool
          (s.journal.visible == s.journal.capacity && decide (0 < s.journal.capacity))
          ++ 0#5 ++ BitVec.ofNat 10 s.journal.head))
    ∧ (o = 0x0C7#15 → shows (BitVec.ofNat 16 s.journal.tail))
    ∧ (o = 0x0CB#15 → shows ((if g.record.fill[0] then g.record.words[0] else 0#16) &&& 0x37FF#16))
    ∧ (o = 0x0CC#15 → shows (0#4 ++ BitVec.ofNat 4 g.outcome.code ++ 0#3
          ++ BitVec.ofBool (g.record.fill[0] && decide (∀ j : Fin 16, j ≤ g.record.last →
              g.record.fill[j] = true)) ++ BitVec.ofNat 4 g.record.last.val))
    ∧ (o = 0x0CD#15 → shows (if ∃ j : Fin 16, g.record.fill[j] = true then
          checkWords (((List.finRange 16).take (g.record.last.val + 1)).map fun j =>
            if g.record.fill[j] then g.record.words[j] else 0#16)
        else 0#16))
    ∧ (o = 0x0CE#15 → s.meter.minute < 2048 → s.meter.weekday < 8 →
        shows (0#1 ++ BitVec.ofNat 3 s.meter.weekday ++ 0#1 ++ BitVec.ofNat 11 s.meter.minute))
    ∧ (o = 0x0CF#15 → shows s.meter.day)
    ∧ (o = 0x0D1#15 → shows (BitVec.ofNat 16 (s.journal.capacity - s.claims)))
    ∧ (∀ b v : Fin 4, o = BitVec.ofNat 15 (0x0E0 + 4 * b.val + v.val) →
        shows (BitVec.ofNat 16 (s.rate b v)))
    ∧ (∀ b : Fin 4, o = BitVec.ofNat 15 (0x0F0 + b.val) →
        shows (BitVec.ofNat 16 (s.meter.bandStart b)))
    ∧ (o = 0x0F4#15 → shows (0#9 ++ s.meter.weekend))
    ∧ (∀ c, o = BitVec.ofNat 15 (0x0F5 + classCode c) →
        shows (0#8 ++ (s.permit c).hold ++ (s.permit c).signOn))

/-! ## Invariants -/

/-- The state after reset meets every invariant below. That the unset lockout and grace times stand at 0
(log 8) and the fields of FREE contexts at their starting values (log 20) is the model's choice. -/
def Obligations.InvariantsHoldAtReset : Prop :=
  MemoryCanonical State.reset ∧ AttnExact State.reset ∧ SubjectsOnce State.reset
  ∧ BudgetsBalance State.reset ∧ FillUnprintable State.reset ∧ InRange State.reset
  ∧ NamesUnique State.reset ∧ WellLinked State.reset ∧ CreditBounded State.reset
  ∧ RingPlaced State.reset ∧ SessionsCounted State.reset ∧ RecordsPending State.reset

/-- Every step keeps the memory array in its canonical form: addresses strictly rising, and no word listed
that an unwritten address reads as (the form and that word are the model's choice, log 3). -/
def Obligations.EveryStepKeepsMemoryCanonical : Prop :=
  ∀ s t, MemoryCanonical s → step s = .next t → MemoryCanonical t

/-- Every step keeps ATTN asserted exactly while some class is pollable (R146), and each subject at most
once in its own class's queue (R142). -/
def Obligations.EveryStepKeepsAttentionExact : Prop :=
  (∀ s t, AttnExact s → step s = .next t → AttnExact t)
  ∧ (∀ s t, SubjectsOnce s → step s = .next t → SubjectsOnce t)

/-- Every step keeps budget plus units since basis equal to basis in every slot (R78), the names of the slots
distinct (R66), the fill character unprintable (R41), and the counted values that InRange names within
their ranges (R1, R40, R65, R80, R100, R102, R104, R106, R108, R122, R123, R165). -/
def Obligations.EveryStepKeepsValuesLawful : Prop :=
  (∀ s t, BudgetsBalance s → step s = .next t → BudgetsBalance t)
  ∧ (∀ s t, FillUnprintable s → step s = .next t → FillUnprintable t)
  ∧ (∀ s t, NamesUnique s → step s = .next t → NamesUnique t)
  ∧ (∀ s t, WellLinked s → BudgetsBalance s → InRange s → step s = .next t → InRange t)

/-- Every step keeps the lines, the answer queue, the contexts and the session records in agreement (R1,
R24, R28, R108). -/
def Obligations.EveryStepKeepsTheLinks : Prop :=
  ∀ s t, WellLinked s → step s = .next t → WellLinked t

/-- Every step keeps the journal's claims within its capacity (R127), the head where the tail and the visible
count put it (R122), and a line's record-pending flag set exactly while its record is queued (R126). -/
def Obligations.EveryStepKeepsTheJournalsAccounts : Prop :=
  (∀ s t, WellLinked s → CreditBounded s → step s = .next t → CreditBounded t)
  ∧ (∀ s t, CreditBounded s → RingPlaced s → step s = .next t → RingPlaced t)
  ∧ (∀ s t, WellLinked s → RecordsPending s → step s = .next t → RecordsPending t)

/-- Every step keeps each slot's open sessions equal to the sessions that name it and within its max
sessions (R77). -/
def Obligations.EveryStepKeepsSessionsCounted : Prop :=
  ∀ s t, WellLinked s → SessionsCounted s → step s = .next t → SessionsCounted t
end

