-- ==== Sys2Proof/Laws/State.lean ====
section
/-!
SUPPORT. What each primitive update of State does to each field and to each register file, by
reflexivity: a later proof rewrites with these and unfolds no record update.
-/

namespace Sys2Proof.Machine

/-! ## `State.setLine` -/

@[simp] theorem State.lines_setLine (s : State) (n : LineNo) (r : LineRecord) :
    (s.setLine n r).lines = s.lines.set n r := rfl
@[simp] theorem State.answerQueue_setLine (s : State) (n : LineNo) (r : LineRecord) :
    (s.setLine n r).answerQueue = s.answerQueue := rfl
@[simp] theorem State.contexts_setLine (s : State) (n : LineNo) (r : LineRecord) :
    (s.setLine n r).contexts = s.contexts := rfl
@[simp] theorem State.fill_setLine (s : State) (n : LineNo) (r : LineRecord) :
    (s.setLine n r).fill = s.fill := rfl
@[simp] theorem State.directory_setLine (s : State) (n : LineNo) (r : LineRecord) :
    (s.setLine n r).directory = s.directory := rfl
@[simp] theorem State.meter_setLine (s : State) (n : LineNo) (r : LineRecord) :
    (s.setLine n r).meter = s.meter := rfl
@[simp] theorem State.journal_setLine (s : State) (n : LineNo) (r : LineRecord) :
    (s.setLine n r).journal = s.journal := rfl
@[simp] theorem State.attention_setLine (s : State) (n : LineNo) (r : LineRecord) :
    (s.setLine n r).attention = s.attention := rfl
@[simp] theorem State.bus_setLine (s : State) (n : LineNo) (r : LineRecord) :
    (s.setLine n r).bus = s.bus := rfl
@[simp] theorem State.plan_setLine (s : State) (n : LineNo) (r : LineRecord) :
    (s.setLine n r).plan = s.plan := rfl
@[simp] theorem State.pins_setLine (s : State) (n : LineNo) (r : LineRecord) :
    (s.setLine n r).pins = s.pins := rfl
@[simp] theorem State.mem_setLine (s : State) (n : LineNo) (r : LineRecord) :
    (s.setLine n r).mem = s.mem := rfl
@[simp] theorem State.freeUses_setLine (s : State) (n : LineNo) (r : LineRecord) :
    (s.setLine n r).freeUses = s.freeUses := rfl
@[simp] theorem State.pending_setLine (s : State) (n : LineNo) (r : LineRecord) :
    (s.setLine n r).pending = s.pending := rfl
@[simp] theorem State.ctx_setLine (s : State) (n : LineNo) (r : LineRecord) (j : CtxNo) :
    (s.setLine n r).ctx j = s.ctx j := rfl
@[simp] theorem State.slot_setLine (s : State) (n : LineNo) (r : LineRecord) (j : SlotNo) :
    (s.setLine n r).slot j = s.slot j := rfl
@[simp] theorem State.session_setLine (s : State) (n : LineNo) (r : LineRecord) (m : LineNo) :
    (s.setLine n r).session m = s.session m := rfl
@[simp] theorem State.readMem_setLine (s : State) (n : LineNo) (r : LineRecord) (b : Addr) :
    (s.setLine n r).readMem b = s.readMem b := rfl
@[simp] theorem State.areaAddr_setLine (s : State) (n : LineNo) (r : LineRecord) (p : Offset) :
    (s.setLine n r).areaAddr p = s.areaAddr p := rfl

/-! ## `State.updLine` -/

@[simp] theorem State.lines_updLine (s : State) (n : LineNo) (f : LineRecord → LineRecord) :
    (s.updLine n f).lines = s.lines.set n (f (s.line n)) := rfl
@[simp] theorem State.answerQueue_updLine (s : State) (n : LineNo) (f : LineRecord → LineRecord) :
    (s.updLine n f).answerQueue = s.answerQueue := rfl
@[simp] theorem State.contexts_updLine (s : State) (n : LineNo) (f : LineRecord → LineRecord) :
    (s.updLine n f).contexts = s.contexts := rfl
@[simp] theorem State.fill_updLine (s : State) (n : LineNo) (f : LineRecord → LineRecord) :
    (s.updLine n f).fill = s.fill := rfl
@[simp] theorem State.directory_updLine (s : State) (n : LineNo) (f : LineRecord → LineRecord) :
    (s.updLine n f).directory = s.directory := rfl
@[simp] theorem State.meter_updLine (s : State) (n : LineNo) (f : LineRecord → LineRecord) :
    (s.updLine n f).meter = s.meter := rfl
@[simp] theorem State.journal_updLine (s : State) (n : LineNo) (f : LineRecord → LineRecord) :
    (s.updLine n f).journal = s.journal := rfl
@[simp] theorem State.attention_updLine (s : State) (n : LineNo) (f : LineRecord → LineRecord) :
    (s.updLine n f).attention = s.attention := rfl
@[simp] theorem State.bus_updLine (s : State) (n : LineNo) (f : LineRecord → LineRecord) :
    (s.updLine n f).bus = s.bus := rfl
@[simp] theorem State.plan_updLine (s : State) (n : LineNo) (f : LineRecord → LineRecord) :
    (s.updLine n f).plan = s.plan := rfl
@[simp] theorem State.pins_updLine (s : State) (n : LineNo) (f : LineRecord → LineRecord) :
    (s.updLine n f).pins = s.pins := rfl
@[simp] theorem State.mem_updLine (s : State) (n : LineNo) (f : LineRecord → LineRecord) :
    (s.updLine n f).mem = s.mem := rfl
@[simp] theorem State.freeUses_updLine (s : State) (n : LineNo) (f : LineRecord → LineRecord) :
    (s.updLine n f).freeUses = s.freeUses := rfl
@[simp] theorem State.pending_updLine (s : State) (n : LineNo) (f : LineRecord → LineRecord) :
    (s.updLine n f).pending = s.pending := rfl
@[simp] theorem State.ctx_updLine (s : State) (n : LineNo) (f : LineRecord → LineRecord) (j : CtxNo) :
    (s.updLine n f).ctx j = s.ctx j := rfl
@[simp] theorem State.slot_updLine (s : State) (n : LineNo) (f : LineRecord → LineRecord) (j : SlotNo) :
    (s.updLine n f).slot j = s.slot j := rfl
@[simp] theorem State.session_updLine (s : State) (n : LineNo) (f : LineRecord → LineRecord) (m : LineNo) :
    (s.updLine n f).session m = s.session m := rfl
@[simp] theorem State.readMem_updLine (s : State) (n : LineNo) (f : LineRecord → LineRecord) (b : Addr) :
    (s.updLine n f).readMem b = s.readMem b := rfl
@[simp] theorem State.areaAddr_updLine (s : State) (n : LineNo) (f : LineRecord → LineRecord) (p : Offset) :
    (s.updLine n f).areaAddr p = s.areaAddr p := rfl

/-! ## `State.setCtx` -/

@[simp] theorem State.lines_setCtx (s : State) (k : CtxNo) (c : Context) :
    (s.setCtx k c).lines = s.lines := rfl
@[simp] theorem State.answerQueue_setCtx (s : State) (k : CtxNo) (c : Context) :
    (s.setCtx k c).answerQueue = s.answerQueue := rfl
@[simp] theorem State.contexts_setCtx (s : State) (k : CtxNo) (c : Context) :
    (s.setCtx k c).contexts = s.contexts.set k c := rfl
@[simp] theorem State.fill_setCtx (s : State) (k : CtxNo) (c : Context) :
    (s.setCtx k c).fill = s.fill := rfl
@[simp] theorem State.directory_setCtx (s : State) (k : CtxNo) (c : Context) :
    (s.setCtx k c).directory = s.directory := rfl
@[simp] theorem State.meter_setCtx (s : State) (k : CtxNo) (c : Context) :
    (s.setCtx k c).meter = s.meter := rfl
@[simp] theorem State.journal_setCtx (s : State) (k : CtxNo) (c : Context) :
    (s.setCtx k c).journal = s.journal := rfl
@[simp] theorem State.attention_setCtx (s : State) (k : CtxNo) (c : Context) :
    (s.setCtx k c).attention = s.attention := rfl
@[simp] theorem State.bus_setCtx (s : State) (k : CtxNo) (c : Context) :
    (s.setCtx k c).bus = s.bus := rfl
@[simp] theorem State.plan_setCtx (s : State) (k : CtxNo) (c : Context) :
    (s.setCtx k c).plan = s.plan := rfl
@[simp] theorem State.pins_setCtx (s : State) (k : CtxNo) (c : Context) :
    (s.setCtx k c).pins = s.pins := rfl
@[simp] theorem State.mem_setCtx (s : State) (k : CtxNo) (c : Context) :
    (s.setCtx k c).mem = s.mem := rfl
@[simp] theorem State.freeUses_setCtx (s : State) (k : CtxNo) (c : Context) :
    (s.setCtx k c).freeUses = s.freeUses := rfl
@[simp] theorem State.pending_setCtx (s : State) (k : CtxNo) (c : Context) :
    (s.setCtx k c).pending = s.pending := rfl
@[simp] theorem State.line_setCtx (s : State) (k : CtxNo) (c : Context) (m : LineNo) :
    (s.setCtx k c).line m = s.line m := rfl
@[simp] theorem State.slot_setCtx (s : State) (k : CtxNo) (c : Context) (j : SlotNo) :
    (s.setCtx k c).slot j = s.slot j := rfl
@[simp] theorem State.session_setCtx (s : State) (k : CtxNo) (c : Context) (m : LineNo) :
    (s.setCtx k c).session m = s.session m := rfl
@[simp] theorem State.readMem_setCtx (s : State) (k : CtxNo) (c : Context) (b : Addr) :
    (s.setCtx k c).readMem b = s.readMem b := rfl
@[simp] theorem State.areaAddr_setCtx (s : State) (k : CtxNo) (c : Context) (p : Offset) :
    (s.setCtx k c).areaAddr p = s.areaAddr p := rfl

/-! ## `State.updCtx` -/

@[simp] theorem State.lines_updCtx (s : State) (k : CtxNo) (f : Context → Context) :
    (s.updCtx k f).lines = s.lines := rfl
@[simp] theorem State.answerQueue_updCtx (s : State) (k : CtxNo) (f : Context → Context) :
    (s.updCtx k f).answerQueue = s.answerQueue := rfl
@[simp] theorem State.contexts_updCtx (s : State) (k : CtxNo) (f : Context → Context) :
    (s.updCtx k f).contexts = s.contexts.set k (f (s.ctx k)) := rfl
@[simp] theorem State.fill_updCtx (s : State) (k : CtxNo) (f : Context → Context) :
    (s.updCtx k f).fill = s.fill := rfl
@[simp] theorem State.directory_updCtx (s : State) (k : CtxNo) (f : Context → Context) :
    (s.updCtx k f).directory = s.directory := rfl
@[simp] theorem State.meter_updCtx (s : State) (k : CtxNo) (f : Context → Context) :
    (s.updCtx k f).meter = s.meter := rfl
@[simp] theorem State.journal_updCtx (s : State) (k : CtxNo) (f : Context → Context) :
    (s.updCtx k f).journal = s.journal := rfl
@[simp] theorem State.attention_updCtx (s : State) (k : CtxNo) (f : Context → Context) :
    (s.updCtx k f).attention = s.attention := rfl
@[simp] theorem State.bus_updCtx (s : State) (k : CtxNo) (f : Context → Context) :
    (s.updCtx k f).bus = s.bus := rfl
@[simp] theorem State.plan_updCtx (s : State) (k : CtxNo) (f : Context → Context) :
    (s.updCtx k f).plan = s.plan := rfl
@[simp] theorem State.pins_updCtx (s : State) (k : CtxNo) (f : Context → Context) :
    (s.updCtx k f).pins = s.pins := rfl
@[simp] theorem State.mem_updCtx (s : State) (k : CtxNo) (f : Context → Context) :
    (s.updCtx k f).mem = s.mem := rfl
@[simp] theorem State.freeUses_updCtx (s : State) (k : CtxNo) (f : Context → Context) :
    (s.updCtx k f).freeUses = s.freeUses := rfl
@[simp] theorem State.pending_updCtx (s : State) (k : CtxNo) (f : Context → Context) :
    (s.updCtx k f).pending = s.pending := rfl
@[simp] theorem State.line_updCtx (s : State) (k : CtxNo) (f : Context → Context) (m : LineNo) :
    (s.updCtx k f).line m = s.line m := rfl
@[simp] theorem State.slot_updCtx (s : State) (k : CtxNo) (f : Context → Context) (j : SlotNo) :
    (s.updCtx k f).slot j = s.slot j := rfl
@[simp] theorem State.session_updCtx (s : State) (k : CtxNo) (f : Context → Context) (m : LineNo) :
    (s.updCtx k f).session m = s.session m := rfl
@[simp] theorem State.readMem_updCtx (s : State) (k : CtxNo) (f : Context → Context) (b : Addr) :
    (s.updCtx k f).readMem b = s.readMem b := rfl
@[simp] theorem State.areaAddr_updCtx (s : State) (k : CtxNo) (f : Context → Context) (p : Offset) :
    (s.updCtx k f).areaAddr p = s.areaAddr p := rfl

/-! ## `State.setSlot` -/

@[simp] theorem State.lines_setSlot (s : State) (i : SlotNo) (a : Option Account) :
    (s.setSlot i a).lines = s.lines := rfl
@[simp] theorem State.answerQueue_setSlot (s : State) (i : SlotNo) (a : Option Account) :
    (s.setSlot i a).answerQueue = s.answerQueue := rfl
@[simp] theorem State.contexts_setSlot (s : State) (i : SlotNo) (a : Option Account) :
    (s.setSlot i a).contexts = s.contexts := rfl
@[simp] theorem State.fill_setSlot (s : State) (i : SlotNo) (a : Option Account) :
    (s.setSlot i a).fill = s.fill := rfl
@[simp] theorem State.directory_setSlot (s : State) (i : SlotNo) (a : Option Account) :
    (s.setSlot i a).directory = { s.directory with slots := s.directory.slots.set i a } := rfl
@[simp] theorem State.meter_setSlot (s : State) (i : SlotNo) (a : Option Account) :
    (s.setSlot i a).meter = s.meter := rfl
@[simp] theorem State.journal_setSlot (s : State) (i : SlotNo) (a : Option Account) :
    (s.setSlot i a).journal = s.journal := rfl
@[simp] theorem State.attention_setSlot (s : State) (i : SlotNo) (a : Option Account) :
    (s.setSlot i a).attention = s.attention := rfl
@[simp] theorem State.bus_setSlot (s : State) (i : SlotNo) (a : Option Account) :
    (s.setSlot i a).bus = s.bus := rfl
@[simp] theorem State.plan_setSlot (s : State) (i : SlotNo) (a : Option Account) :
    (s.setSlot i a).plan = s.plan := rfl
@[simp] theorem State.pins_setSlot (s : State) (i : SlotNo) (a : Option Account) :
    (s.setSlot i a).pins = s.pins := rfl
@[simp] theorem State.mem_setSlot (s : State) (i : SlotNo) (a : Option Account) :
    (s.setSlot i a).mem = s.mem := rfl
@[simp] theorem State.freeUses_setSlot (s : State) (i : SlotNo) (a : Option Account) :
    (s.setSlot i a).freeUses = s.freeUses := rfl
@[simp] theorem State.pending_setSlot (s : State) (i : SlotNo) (a : Option Account) :
    (s.setSlot i a).pending = s.pending := rfl
@[simp] theorem State.line_setSlot (s : State) (i : SlotNo) (a : Option Account) (m : LineNo) :
    (s.setSlot i a).line m = s.line m := rfl
@[simp] theorem State.ctx_setSlot (s : State) (i : SlotNo) (a : Option Account) (j : CtxNo) :
    (s.setSlot i a).ctx j = s.ctx j := rfl
@[simp] theorem State.session_setSlot (s : State) (i : SlotNo) (a : Option Account) (m : LineNo) :
    (s.setSlot i a).session m = s.session m := rfl
@[simp] theorem State.readMem_setSlot (s : State) (i : SlotNo) (a : Option Account) (b : Addr) :
    (s.setSlot i a).readMem b = s.readMem b := rfl
@[simp] theorem State.areaAddr_setSlot (s : State) (i : SlotNo) (a : Option Account) (p : Offset) :
    (s.setSlot i a).areaAddr p = s.areaAddr p := rfl

/-! ## `State.updSlot` -/

@[simp] theorem State.lines_updSlot (s : State) (i : SlotNo) (f : Account → Account) :
    (s.updSlot i f).lines = s.lines := rfl
@[simp] theorem State.answerQueue_updSlot (s : State) (i : SlotNo) (f : Account → Account) :
    (s.updSlot i f).answerQueue = s.answerQueue := rfl
@[simp] theorem State.contexts_updSlot (s : State) (i : SlotNo) (f : Account → Account) :
    (s.updSlot i f).contexts = s.contexts := rfl
@[simp] theorem State.fill_updSlot (s : State) (i : SlotNo) (f : Account → Account) :
    (s.updSlot i f).fill = s.fill := rfl
@[simp] theorem State.directory_updSlot (s : State) (i : SlotNo) (f : Account → Account) :
    (s.updSlot i f).directory = { s.directory with slots := s.directory.slots.set i ((s.slot i).map f) } := rfl
@[simp] theorem State.meter_updSlot (s : State) (i : SlotNo) (f : Account → Account) :
    (s.updSlot i f).meter = s.meter := rfl
@[simp] theorem State.journal_updSlot (s : State) (i : SlotNo) (f : Account → Account) :
    (s.updSlot i f).journal = s.journal := rfl
@[simp] theorem State.attention_updSlot (s : State) (i : SlotNo) (f : Account → Account) :
    (s.updSlot i f).attention = s.attention := rfl
@[simp] theorem State.bus_updSlot (s : State) (i : SlotNo) (f : Account → Account) :
    (s.updSlot i f).bus = s.bus := rfl
@[simp] theorem State.plan_updSlot (s : State) (i : SlotNo) (f : Account → Account) :
    (s.updSlot i f).plan = s.plan := rfl
@[simp] theorem State.pins_updSlot (s : State) (i : SlotNo) (f : Account → Account) :
    (s.updSlot i f).pins = s.pins := rfl
@[simp] theorem State.mem_updSlot (s : State) (i : SlotNo) (f : Account → Account) :
    (s.updSlot i f).mem = s.mem := rfl
@[simp] theorem State.freeUses_updSlot (s : State) (i : SlotNo) (f : Account → Account) :
    (s.updSlot i f).freeUses = s.freeUses := rfl
@[simp] theorem State.pending_updSlot (s : State) (i : SlotNo) (f : Account → Account) :
    (s.updSlot i f).pending = s.pending := rfl
@[simp] theorem State.line_updSlot (s : State) (i : SlotNo) (f : Account → Account) (m : LineNo) :
    (s.updSlot i f).line m = s.line m := rfl
@[simp] theorem State.ctx_updSlot (s : State) (i : SlotNo) (f : Account → Account) (j : CtxNo) :
    (s.updSlot i f).ctx j = s.ctx j := rfl
@[simp] theorem State.session_updSlot (s : State) (i : SlotNo) (f : Account → Account) (m : LineNo) :
    (s.updSlot i f).session m = s.session m := rfl
@[simp] theorem State.readMem_updSlot (s : State) (i : SlotNo) (f : Account → Account) (b : Addr) :
    (s.updSlot i f).readMem b = s.readMem b := rfl
@[simp] theorem State.areaAddr_updSlot (s : State) (i : SlotNo) (f : Account → Account) (p : Offset) :
    (s.updSlot i f).areaAddr p = s.areaAddr p := rfl

/-! ## `State.setSession` -/

@[simp] theorem State.lines_setSession (s : State) (n : LineNo) (x : Option Session) :
    (s.setSession n x).lines = s.lines := rfl
@[simp] theorem State.answerQueue_setSession (s : State) (n : LineNo) (x : Option Session) :
    (s.setSession n x).answerQueue = s.answerQueue := rfl
@[simp] theorem State.contexts_setSession (s : State) (n : LineNo) (x : Option Session) :
    (s.setSession n x).contexts = s.contexts := rfl
@[simp] theorem State.fill_setSession (s : State) (n : LineNo) (x : Option Session) :
    (s.setSession n x).fill = s.fill := rfl
@[simp] theorem State.directory_setSession (s : State) (n : LineNo) (x : Option Session) :
    (s.setSession n x).directory = s.directory := rfl
@[simp] theorem State.meter_setSession (s : State) (n : LineNo) (x : Option Session) :
    (s.setSession n x).meter = { s.meter with sessions := s.meter.sessions.set n x } := rfl
@[simp] theorem State.journal_setSession (s : State) (n : LineNo) (x : Option Session) :
    (s.setSession n x).journal = s.journal := rfl
@[simp] theorem State.attention_setSession (s : State) (n : LineNo) (x : Option Session) :
    (s.setSession n x).attention = s.attention := rfl
@[simp] theorem State.bus_setSession (s : State) (n : LineNo) (x : Option Session) :
    (s.setSession n x).bus = s.bus := rfl
@[simp] theorem State.plan_setSession (s : State) (n : LineNo) (x : Option Session) :
    (s.setSession n x).plan = s.plan := rfl
@[simp] theorem State.pins_setSession (s : State) (n : LineNo) (x : Option Session) :
    (s.setSession n x).pins = s.pins := rfl
@[simp] theorem State.mem_setSession (s : State) (n : LineNo) (x : Option Session) :
    (s.setSession n x).mem = s.mem := rfl
@[simp] theorem State.freeUses_setSession (s : State) (n : LineNo) (x : Option Session) :
    (s.setSession n x).freeUses = s.freeUses := rfl
@[simp] theorem State.pending_setSession (s : State) (n : LineNo) (x : Option Session) :
    (s.setSession n x).pending = s.pending := rfl
@[simp] theorem State.line_setSession (s : State) (n : LineNo) (x : Option Session) (m : LineNo) :
    (s.setSession n x).line m = s.line m := rfl
@[simp] theorem State.ctx_setSession (s : State) (n : LineNo) (x : Option Session) (j : CtxNo) :
    (s.setSession n x).ctx j = s.ctx j := rfl
@[simp] theorem State.slot_setSession (s : State) (n : LineNo) (x : Option Session) (j : SlotNo) :
    (s.setSession n x).slot j = s.slot j := rfl
@[simp] theorem State.readMem_setSession (s : State) (n : LineNo) (x : Option Session) (b : Addr) :
    (s.setSession n x).readMem b = s.readMem b := rfl
@[simp] theorem State.areaAddr_setSession (s : State) (n : LineNo) (x : Option Session) (p : Offset) :
    (s.setSession n x).areaAddr p = s.areaAddr p := rfl

/-! ## `State.updSession` -/

@[simp] theorem State.lines_updSession (s : State) (n : LineNo) (f : Session → Session) :
    (s.updSession n f).lines = s.lines := rfl
@[simp] theorem State.answerQueue_updSession (s : State) (n : LineNo) (f : Session → Session) :
    (s.updSession n f).answerQueue = s.answerQueue := rfl
@[simp] theorem State.contexts_updSession (s : State) (n : LineNo) (f : Session → Session) :
    (s.updSession n f).contexts = s.contexts := rfl
@[simp] theorem State.fill_updSession (s : State) (n : LineNo) (f : Session → Session) :
    (s.updSession n f).fill = s.fill := rfl
@[simp] theorem State.directory_updSession (s : State) (n : LineNo) (f : Session → Session) :
    (s.updSession n f).directory = s.directory := rfl
@[simp] theorem State.meter_updSession (s : State) (n : LineNo) (f : Session → Session) :
    (s.updSession n f).meter = { s.meter with sessions := s.meter.sessions.set n ((s.session n).map f) } := rfl
@[simp] theorem State.journal_updSession (s : State) (n : LineNo) (f : Session → Session) :
    (s.updSession n f).journal = s.journal := rfl
@[simp] theorem State.attention_updSession (s : State) (n : LineNo) (f : Session → Session) :
    (s.updSession n f).attention = s.attention := rfl
@[simp] theorem State.bus_updSession (s : State) (n : LineNo) (f : Session → Session) :
    (s.updSession n f).bus = s.bus := rfl
@[simp] theorem State.plan_updSession (s : State) (n : LineNo) (f : Session → Session) :
    (s.updSession n f).plan = s.plan := rfl
@[simp] theorem State.pins_updSession (s : State) (n : LineNo) (f : Session → Session) :
    (s.updSession n f).pins = s.pins := rfl
@[simp] theorem State.mem_updSession (s : State) (n : LineNo) (f : Session → Session) :
    (s.updSession n f).mem = s.mem := rfl
@[simp] theorem State.freeUses_updSession (s : State) (n : LineNo) (f : Session → Session) :
    (s.updSession n f).freeUses = s.freeUses := rfl
@[simp] theorem State.pending_updSession (s : State) (n : LineNo) (f : Session → Session) :
    (s.updSession n f).pending = s.pending := rfl
@[simp] theorem State.line_updSession (s : State) (n : LineNo) (f : Session → Session) (m : LineNo) :
    (s.updSession n f).line m = s.line m := rfl
@[simp] theorem State.ctx_updSession (s : State) (n : LineNo) (f : Session → Session) (j : CtxNo) :
    (s.updSession n f).ctx j = s.ctx j := rfl
@[simp] theorem State.slot_updSession (s : State) (n : LineNo) (f : Session → Session) (j : SlotNo) :
    (s.updSession n f).slot j = s.slot j := rfl
@[simp] theorem State.readMem_updSession (s : State) (n : LineNo) (f : Session → Session) (b : Addr) :
    (s.updSession n f).readMem b = s.readMem b := rfl
@[simp] theorem State.areaAddr_updSession (s : State) (n : LineNo) (f : Session → Session) (p : Offset) :
    (s.updSession n f).areaAddr p = s.areaAddr p := rfl

/-! ## `State.writeMem` -/

@[simp] theorem State.lines_writeMem (s : State) (a : Addr) (v : Word) :
    (s.writeMem a v).lines = s.lines := rfl
@[simp] theorem State.answerQueue_writeMem (s : State) (a : Addr) (v : Word) :
    (s.writeMem a v).answerQueue = s.answerQueue := rfl
@[simp] theorem State.contexts_writeMem (s : State) (a : Addr) (v : Word) :
    (s.writeMem a v).contexts = s.contexts := rfl
@[simp] theorem State.fill_writeMem (s : State) (a : Addr) (v : Word) :
    (s.writeMem a v).fill = s.fill := rfl
@[simp] theorem State.directory_writeMem (s : State) (a : Addr) (v : Word) :
    (s.writeMem a v).directory = s.directory := rfl
@[simp] theorem State.meter_writeMem (s : State) (a : Addr) (v : Word) :
    (s.writeMem a v).meter = s.meter := rfl
@[simp] theorem State.journal_writeMem (s : State) (a : Addr) (v : Word) :
    (s.writeMem a v).journal = s.journal := rfl
@[simp] theorem State.attention_writeMem (s : State) (a : Addr) (v : Word) :
    (s.writeMem a v).attention = s.attention := rfl
@[simp] theorem State.bus_writeMem (s : State) (a : Addr) (v : Word) :
    (s.writeMem a v).bus = s.bus := rfl
@[simp] theorem State.plan_writeMem (s : State) (a : Addr) (v : Word) :
    (s.writeMem a v).plan = s.plan := rfl
@[simp] theorem State.pins_writeMem (s : State) (a : Addr) (v : Word) :
    (s.writeMem a v).pins = s.pins := rfl
@[simp] theorem State.mem_writeMem (s : State) (a : Addr) (v : Word) :
    (s.writeMem a v).mem = Memory.write s.mem a.toNat v := rfl
@[simp] theorem State.freeUses_writeMem (s : State) (a : Addr) (v : Word) :
    (s.writeMem a v).freeUses = s.freeUses := rfl
@[simp] theorem State.pending_writeMem (s : State) (a : Addr) (v : Word) :
    (s.writeMem a v).pending = s.pending := rfl
@[simp] theorem State.line_writeMem (s : State) (a : Addr) (v : Word) (m : LineNo) :
    (s.writeMem a v).line m = s.line m := rfl
@[simp] theorem State.ctx_writeMem (s : State) (a : Addr) (v : Word) (j : CtxNo) :
    (s.writeMem a v).ctx j = s.ctx j := rfl
@[simp] theorem State.slot_writeMem (s : State) (a : Addr) (v : Word) (j : SlotNo) :
    (s.writeMem a v).slot j = s.slot j := rfl
@[simp] theorem State.session_writeMem (s : State) (a : Addr) (v : Word) (m : LineNo) :
    (s.writeMem a v).session m = s.session m := rfl
@[simp] theorem State.areaAddr_writeMem (s : State) (a : Addr) (v : Word) (p : Offset) :
    (s.writeMem a v).areaAddr p = s.areaAddr p := rfl

/-! ## `State.writeArea` -/

@[simp] theorem State.lines_writeArea (s : State) (o : Offset) (v : Word) :
    (s.writeArea o v).lines = s.lines := rfl
@[simp] theorem State.answerQueue_writeArea (s : State) (o : Offset) (v : Word) :
    (s.writeArea o v).answerQueue = s.answerQueue := rfl
@[simp] theorem State.contexts_writeArea (s : State) (o : Offset) (v : Word) :
    (s.writeArea o v).contexts = s.contexts := rfl
@[simp] theorem State.fill_writeArea (s : State) (o : Offset) (v : Word) :
    (s.writeArea o v).fill = s.fill := rfl
@[simp] theorem State.directory_writeArea (s : State) (o : Offset) (v : Word) :
    (s.writeArea o v).directory = s.directory := rfl
@[simp] theorem State.meter_writeArea (s : State) (o : Offset) (v : Word) :
    (s.writeArea o v).meter = s.meter := rfl
@[simp] theorem State.journal_writeArea (s : State) (o : Offset) (v : Word) :
    (s.writeArea o v).journal = s.journal := rfl
@[simp] theorem State.attention_writeArea (s : State) (o : Offset) (v : Word) :
    (s.writeArea o v).attention = s.attention := rfl
@[simp] theorem State.bus_writeArea (s : State) (o : Offset) (v : Word) :
    (s.writeArea o v).bus = s.bus := rfl
@[simp] theorem State.plan_writeArea (s : State) (o : Offset) (v : Word) :
    (s.writeArea o v).plan = s.plan := rfl
@[simp] theorem State.pins_writeArea (s : State) (o : Offset) (v : Word) :
    (s.writeArea o v).pins = s.pins := rfl
@[simp] theorem State.mem_writeArea (s : State) (o : Offset) (v : Word) :
    (s.writeArea o v).mem = Memory.write s.mem (s.areaAddr o).toNat v := rfl
@[simp] theorem State.freeUses_writeArea (s : State) (o : Offset) (v : Word) :
    (s.writeArea o v).freeUses = s.freeUses := rfl
@[simp] theorem State.pending_writeArea (s : State) (o : Offset) (v : Word) :
    (s.writeArea o v).pending = s.pending := rfl
@[simp] theorem State.line_writeArea (s : State) (o : Offset) (v : Word) (m : LineNo) :
    (s.writeArea o v).line m = s.line m := rfl
@[simp] theorem State.ctx_writeArea (s : State) (o : Offset) (v : Word) (j : CtxNo) :
    (s.writeArea o v).ctx j = s.ctx j := rfl
@[simp] theorem State.slot_writeArea (s : State) (o : Offset) (v : Word) (j : SlotNo) :
    (s.writeArea o v).slot j = s.slot j := rfl
@[simp] theorem State.session_writeArea (s : State) (o : Offset) (v : Word) (m : LineNo) :
    (s.writeArea o v).session m = s.session m := rfl
@[simp] theorem State.areaAddr_writeArea (s : State) (o : Offset) (v : Word) (p : Offset) :
    (s.writeArea o v).areaAddr p = s.areaAddr p := rfl

/-! ## `State.setBd` -/

@[simp] theorem State.lines_setBd (s : State) (v : Word) :
    (s.setBd v).lines = s.lines := rfl
@[simp] theorem State.answerQueue_setBd (s : State) (v : Word) :
    (s.setBd v).answerQueue = s.answerQueue := rfl
@[simp] theorem State.contexts_setBd (s : State) (v : Word) :
    (s.setBd v).contexts = s.contexts := rfl
@[simp] theorem State.fill_setBd (s : State) (v : Word) :
    (s.setBd v).fill = s.fill := rfl
@[simp] theorem State.directory_setBd (s : State) (v : Word) :
    (s.setBd v).directory = s.directory := rfl
@[simp] theorem State.meter_setBd (s : State) (v : Word) :
    (s.setBd v).meter = s.meter := rfl
@[simp] theorem State.journal_setBd (s : State) (v : Word) :
    (s.setBd v).journal = s.journal := rfl
@[simp] theorem State.attention_setBd (s : State) (v : Word) :
    (s.setBd v).attention = s.attention := rfl
@[simp] theorem State.bus_setBd (s : State) (v : Word) :
    (s.setBd v).bus = s.bus := rfl
@[simp] theorem State.plan_setBd (s : State) (v : Word) :
    (s.setBd v).plan = s.plan := rfl
@[simp] theorem State.pins_setBd (s : State) (v : Word) :
    (s.setBd v).pins = { s.pins with bd := v } := rfl
@[simp] theorem State.mem_setBd (s : State) (v : Word) :
    (s.setBd v).mem = s.mem := rfl
@[simp] theorem State.freeUses_setBd (s : State) (v : Word) :
    (s.setBd v).freeUses = s.freeUses := rfl
@[simp] theorem State.pending_setBd (s : State) (v : Word) :
    (s.setBd v).pending = s.pending := rfl
@[simp] theorem State.line_setBd (s : State) (v : Word) (m : LineNo) :
    (s.setBd v).line m = s.line m := rfl
@[simp] theorem State.ctx_setBd (s : State) (v : Word) (j : CtxNo) :
    (s.setBd v).ctx j = s.ctx j := rfl
@[simp] theorem State.slot_setBd (s : State) (v : Word) (j : SlotNo) :
    (s.setBd v).slot j = s.slot j := rfl
@[simp] theorem State.session_setBd (s : State) (v : Word) (m : LineNo) :
    (s.setBd v).session m = s.session m := rfl
@[simp] theorem State.readMem_setBd (s : State) (v : Word) (b : Addr) :
    (s.setBd v).readMem b = s.readMem b := rfl
@[simp] theorem State.areaAddr_setBd (s : State) (v : Word) (p : Offset) :
    (s.setBd v).areaAddr p = s.areaAddr p := rfl

/-! ## `State.give` -/

@[simp] theorem State.lines_give (s : State) (e : Notice) :
    (s.give e).lines = s.lines := rfl
@[simp] theorem State.answerQueue_give (s : State) (e : Notice) :
    (s.give e).answerQueue = s.answerQueue := rfl
@[simp] theorem State.contexts_give (s : State) (e : Notice) :
    (s.give e).contexts = s.contexts := rfl
@[simp] theorem State.fill_give (s : State) (e : Notice) :
    (s.give e).fill = s.fill := rfl
@[simp] theorem State.directory_give (s : State) (e : Notice) :
    (s.give e).directory = s.directory := rfl
@[simp] theorem State.meter_give (s : State) (e : Notice) :
    (s.give e).meter = s.meter := rfl
@[simp] theorem State.journal_give (s : State) (e : Notice) :
    (s.give e).journal = s.journal := rfl
@[simp] theorem State.attention_give (s : State) (e : Notice) :
    (s.give e).attention = s.attention.setQueue e.cls (queueNotice (s.attention.queue e.cls) e) := rfl
@[simp] theorem State.bus_give (s : State) (e : Notice) :
    (s.give e).bus = s.bus := rfl
@[simp] theorem State.plan_give (s : State) (e : Notice) :
    (s.give e).plan = s.plan := rfl
@[simp] theorem State.pins_give (s : State) (e : Notice) :
    (s.give e).pins = s.pins := rfl
@[simp] theorem State.mem_give (s : State) (e : Notice) :
    (s.give e).mem = s.mem := rfl
@[simp] theorem State.freeUses_give (s : State) (e : Notice) :
    (s.give e).freeUses = s.freeUses := rfl
@[simp] theorem State.pending_give (s : State) (e : Notice) :
    (s.give e).pending = s.pending := rfl
@[simp] theorem State.line_give (s : State) (e : Notice) (m : LineNo) :
    (s.give e).line m = s.line m := rfl
@[simp] theorem State.ctx_give (s : State) (e : Notice) (j : CtxNo) :
    (s.give e).ctx j = s.ctx j := rfl
@[simp] theorem State.slot_give (s : State) (e : Notice) (j : SlotNo) :
    (s.give e).slot j = s.slot j := rfl
@[simp] theorem State.session_give (s : State) (e : Notice) (m : LineNo) :
    (s.give e).session m = s.session m := rfl
@[simp] theorem State.readMem_give (s : State) (e : Notice) (b : Addr) :
    (s.give e).readMem b = s.readMem b := rfl
@[simp] theorem State.areaAddr_give (s : State) (e : Notice) (p : Offset) :
    (s.give e).areaAddr p = s.areaAddr p := rfl

/-! ## `State.withdrawPrompts` -/

@[simp] theorem State.lines_withdrawPrompts (s : State) (n : LineNo) :
    (s.withdrawPrompts n).lines = s.lines := rfl
@[simp] theorem State.answerQueue_withdrawPrompts (s : State) (n : LineNo) :
    (s.withdrawPrompts n).answerQueue = s.answerQueue := rfl
@[simp] theorem State.contexts_withdrawPrompts (s : State) (n : LineNo) :
    (s.withdrawPrompts n).contexts = s.contexts := rfl
@[simp] theorem State.fill_withdrawPrompts (s : State) (n : LineNo) :
    (s.withdrawPrompts n).fill = s.fill := rfl
@[simp] theorem State.directory_withdrawPrompts (s : State) (n : LineNo) :
    (s.withdrawPrompts n).directory = s.directory := rfl
@[simp] theorem State.meter_withdrawPrompts (s : State) (n : LineNo) :
    (s.withdrawPrompts n).meter = s.meter := rfl
@[simp] theorem State.journal_withdrawPrompts (s : State) (n : LineNo) :
    (s.withdrawPrompts n).journal = s.journal := rfl
@[simp] theorem State.attention_withdrawPrompts (s : State) (n : LineNo) :
    (s.withdrawPrompts n).attention = (s.attention.setQueue 3 (withoutLine n (s.attention.queue 3))).setQueue 4
      (withoutLine n ((s.attention.setQueue 3 (withoutLine n (s.attention.queue 3))).queue 4)) := rfl
@[simp] theorem State.bus_withdrawPrompts (s : State) (n : LineNo) :
    (s.withdrawPrompts n).bus = s.bus := rfl
@[simp] theorem State.plan_withdrawPrompts (s : State) (n : LineNo) :
    (s.withdrawPrompts n).plan = s.plan := rfl
@[simp] theorem State.pins_withdrawPrompts (s : State) (n : LineNo) :
    (s.withdrawPrompts n).pins = s.pins := rfl
@[simp] theorem State.mem_withdrawPrompts (s : State) (n : LineNo) :
    (s.withdrawPrompts n).mem = s.mem := rfl
@[simp] theorem State.freeUses_withdrawPrompts (s : State) (n : LineNo) :
    (s.withdrawPrompts n).freeUses = s.freeUses := rfl
@[simp] theorem State.pending_withdrawPrompts (s : State) (n : LineNo) :
    (s.withdrawPrompts n).pending = s.pending := rfl
@[simp] theorem State.line_withdrawPrompts (s : State) (n : LineNo) (m : LineNo) :
    (s.withdrawPrompts n).line m = s.line m := rfl
@[simp] theorem State.ctx_withdrawPrompts (s : State) (n : LineNo) (j : CtxNo) :
    (s.withdrawPrompts n).ctx j = s.ctx j := rfl
@[simp] theorem State.slot_withdrawPrompts (s : State) (n : LineNo) (j : SlotNo) :
    (s.withdrawPrompts n).slot j = s.slot j := rfl
@[simp] theorem State.session_withdrawPrompts (s : State) (n : LineNo) (m : LineNo) :
    (s.withdrawPrompts n).session m = s.session m := rfl
@[simp] theorem State.readMem_withdrawPrompts (s : State) (n : LineNo) (b : Addr) :
    (s.withdrawPrompts n).readMem b = s.readMem b := rfl
@[simp] theorem State.areaAddr_withdrawPrompts (s : State) (n : LineNo) (p : Offset) :
    (s.withdrawPrompts n).areaAddr p = s.areaAddr p := rfl

/-! ## `State.hangUp` -/

@[simp] theorem State.lines_hangUp (s : State) (n : LineNo) (manner : Manner) :
    (s.hangUp n manner).lines = s.lines.set n
      { s.line n with forced := requestHangUp s.plan.politeLimit (s.line n).forced manner } := rfl
@[simp] theorem State.answerQueue_hangUp (s : State) (n : LineNo) (manner : Manner) :
    (s.hangUp n manner).answerQueue = s.answerQueue := rfl
@[simp] theorem State.contexts_hangUp (s : State) (n : LineNo) (manner : Manner) :
    (s.hangUp n manner).contexts = s.contexts := rfl
@[simp] theorem State.fill_hangUp (s : State) (n : LineNo) (manner : Manner) :
    (s.hangUp n manner).fill = s.fill := rfl
@[simp] theorem State.directory_hangUp (s : State) (n : LineNo) (manner : Manner) :
    (s.hangUp n manner).directory = s.directory := rfl
@[simp] theorem State.meter_hangUp (s : State) (n : LineNo) (manner : Manner) :
    (s.hangUp n manner).meter = s.meter := rfl
@[simp] theorem State.journal_hangUp (s : State) (n : LineNo) (manner : Manner) :
    (s.hangUp n manner).journal = s.journal := rfl
@[simp] theorem State.attention_hangUp (s : State) (n : LineNo) (manner : Manner) :
    (s.hangUp n manner).attention = s.attention := rfl
@[simp] theorem State.bus_hangUp (s : State) (n : LineNo) (manner : Manner) :
    (s.hangUp n manner).bus = s.bus := rfl
@[simp] theorem State.plan_hangUp (s : State) (n : LineNo) (manner : Manner) :
    (s.hangUp n manner).plan = s.plan := rfl
@[simp] theorem State.pins_hangUp (s : State) (n : LineNo) (manner : Manner) :
    (s.hangUp n manner).pins = s.pins := rfl
@[simp] theorem State.mem_hangUp (s : State) (n : LineNo) (manner : Manner) :
    (s.hangUp n manner).mem = s.mem := rfl
@[simp] theorem State.freeUses_hangUp (s : State) (n : LineNo) (manner : Manner) :
    (s.hangUp n manner).freeUses = s.freeUses := rfl
@[simp] theorem State.pending_hangUp (s : State) (n : LineNo) (manner : Manner) :
    (s.hangUp n manner).pending = s.pending := rfl
@[simp] theorem State.ctx_hangUp (s : State) (n : LineNo) (manner : Manner) (j : CtxNo) :
    (s.hangUp n manner).ctx j = s.ctx j := rfl
@[simp] theorem State.slot_hangUp (s : State) (n : LineNo) (manner : Manner) (j : SlotNo) :
    (s.hangUp n manner).slot j = s.slot j := rfl
@[simp] theorem State.session_hangUp (s : State) (n : LineNo) (manner : Manner) (m : LineNo) :
    (s.hangUp n manner).session m = s.session m := rfl
@[simp] theorem State.readMem_hangUp (s : State) (n : LineNo) (manner : Manner) (b : Addr) :
    (s.hangUp n manner).readMem b = s.readMem b := rfl
@[simp] theorem State.areaAddr_hangUp (s : State) (n : LineNo) (manner : Manner) (p : Offset) :
    (s.hangUp n manner).areaAddr p = s.areaAddr p := rfl

/-! ## `State.withdrawAnswer` -/

@[simp] theorem State.lines_withdrawAnswer (s : State) (n : LineNo) :
    (s.withdrawAnswer n).lines = s.lines.set n
      { s.line n with forced := Machine.withdrawAnswer (s.line n).forced } := rfl
@[simp] theorem State.answerQueue_withdrawAnswer (s : State) (n : LineNo) :
    (s.withdrawAnswer n).answerQueue = s.answerQueue := rfl
@[simp] theorem State.contexts_withdrawAnswer (s : State) (n : LineNo) :
    (s.withdrawAnswer n).contexts = s.contexts := rfl
@[simp] theorem State.fill_withdrawAnswer (s : State) (n : LineNo) :
    (s.withdrawAnswer n).fill = s.fill := rfl
@[simp] theorem State.directory_withdrawAnswer (s : State) (n : LineNo) :
    (s.withdrawAnswer n).directory = s.directory := rfl
@[simp] theorem State.meter_withdrawAnswer (s : State) (n : LineNo) :
    (s.withdrawAnswer n).meter = s.meter := rfl
@[simp] theorem State.journal_withdrawAnswer (s : State) (n : LineNo) :
    (s.withdrawAnswer n).journal = s.journal := rfl
@[simp] theorem State.attention_withdrawAnswer (s : State) (n : LineNo) :
    (s.withdrawAnswer n).attention = s.attention := rfl
@[simp] theorem State.bus_withdrawAnswer (s : State) (n : LineNo) :
    (s.withdrawAnswer n).bus = s.bus := rfl
@[simp] theorem State.plan_withdrawAnswer (s : State) (n : LineNo) :
    (s.withdrawAnswer n).plan = s.plan := rfl
@[simp] theorem State.pins_withdrawAnswer (s : State) (n : LineNo) :
    (s.withdrawAnswer n).pins = s.pins := rfl
@[simp] theorem State.mem_withdrawAnswer (s : State) (n : LineNo) :
    (s.withdrawAnswer n).mem = s.mem := rfl
@[simp] theorem State.freeUses_withdrawAnswer (s : State) (n : LineNo) :
    (s.withdrawAnswer n).freeUses = s.freeUses := rfl
@[simp] theorem State.pending_withdrawAnswer (s : State) (n : LineNo) :
    (s.withdrawAnswer n).pending = s.pending := rfl
@[simp] theorem State.ctx_withdrawAnswer (s : State) (n : LineNo) (j : CtxNo) :
    (s.withdrawAnswer n).ctx j = s.ctx j := rfl
@[simp] theorem State.slot_withdrawAnswer (s : State) (n : LineNo) (j : SlotNo) :
    (s.withdrawAnswer n).slot j = s.slot j := rfl
@[simp] theorem State.session_withdrawAnswer (s : State) (n : LineNo) (m : LineNo) :
    (s.withdrawAnswer n).session m = s.session m := rfl
@[simp] theorem State.readMem_withdrawAnswer (s : State) (n : LineNo) (b : Addr) :
    (s.withdrawAnswer n).readMem b = s.readMem b := rfl
@[simp] theorem State.areaAddr_withdrawAnswer (s : State) (n : LineNo) (p : Offset) :
    (s.withdrawAnswer n).areaAddr p = s.areaAddr p := rfl

/-! ## `State.enterClearing` -/

@[simp] theorem State.lines_enterClearing (s : State) (n : LineNo) :
    (s.enterClearing n).lines = s.lines.set n (s.line n).toClearing := rfl
@[simp] theorem State.answerQueue_enterClearing (s : State) (n : LineNo) :
    (s.enterClearing n).answerQueue = s.answerQueue := rfl
@[simp] theorem State.contexts_enterClearing (s : State) (n : LineNo) :
    (s.enterClearing n).contexts = s.contexts := rfl
@[simp] theorem State.fill_enterClearing (s : State) (n : LineNo) :
    (s.enterClearing n).fill = s.fill := rfl
@[simp] theorem State.directory_enterClearing (s : State) (n : LineNo) :
    (s.enterClearing n).directory = s.directory := rfl
@[simp] theorem State.meter_enterClearing (s : State) (n : LineNo) :
    (s.enterClearing n).meter = s.meter := rfl
@[simp] theorem State.journal_enterClearing (s : State) (n : LineNo) :
    (s.enterClearing n).journal = s.journal := rfl
@[simp] theorem State.attention_enterClearing (s : State) (n : LineNo) :
    (s.enterClearing n).attention = s.attention := rfl
@[simp] theorem State.bus_enterClearing (s : State) (n : LineNo) :
    (s.enterClearing n).bus = s.bus := rfl
@[simp] theorem State.plan_enterClearing (s : State) (n : LineNo) :
    (s.enterClearing n).plan = s.plan := rfl
@[simp] theorem State.pins_enterClearing (s : State) (n : LineNo) :
    (s.enterClearing n).pins = s.pins := rfl
@[simp] theorem State.mem_enterClearing (s : State) (n : LineNo) :
    (s.enterClearing n).mem = s.mem := rfl
@[simp] theorem State.freeUses_enterClearing (s : State) (n : LineNo) :
    (s.enterClearing n).freeUses = s.freeUses := rfl
@[simp] theorem State.pending_enterClearing (s : State) (n : LineNo) :
    (s.enterClearing n).pending = s.pending := rfl
@[simp] theorem State.ctx_enterClearing (s : State) (n : LineNo) (j : CtxNo) :
    (s.enterClearing n).ctx j = s.ctx j := rfl
@[simp] theorem State.slot_enterClearing (s : State) (n : LineNo) (j : SlotNo) :
    (s.enterClearing n).slot j = s.slot j := rfl
@[simp] theorem State.session_enterClearing (s : State) (n : LineNo) (m : LineNo) :
    (s.enterClearing n).session m = s.session m := rfl
@[simp] theorem State.readMem_enterClearing (s : State) (n : LineNo) (b : Addr) :
    (s.enterClearing n).readMem b = s.readMem b := rfl
@[simp] theorem State.areaAddr_enterClearing (s : State) (n : LineNo) (p : Offset) :
    (s.enterClearing n).areaAddr p = s.areaAddr p := rfl

/-! ## `State.leaveQueue` -/

@[simp] theorem State.lines_leaveQueue (s : State) (n : LineNo) :
    (s.leaveQueue n).lines = s.lines.set n { s.line n with ringGone := none } := rfl
@[simp] theorem State.answerQueue_leaveQueue (s : State) (n : LineNo) :
    (s.leaveQueue n).answerQueue = s.answerQueue.filter (· != n) := rfl
@[simp] theorem State.contexts_leaveQueue (s : State) (n : LineNo) :
    (s.leaveQueue n).contexts = s.contexts := rfl
@[simp] theorem State.fill_leaveQueue (s : State) (n : LineNo) :
    (s.leaveQueue n).fill = s.fill := rfl
@[simp] theorem State.directory_leaveQueue (s : State) (n : LineNo) :
    (s.leaveQueue n).directory = s.directory := rfl
@[simp] theorem State.meter_leaveQueue (s : State) (n : LineNo) :
    (s.leaveQueue n).meter = s.meter := rfl
@[simp] theorem State.journal_leaveQueue (s : State) (n : LineNo) :
    (s.leaveQueue n).journal = s.journal := rfl
@[simp] theorem State.attention_leaveQueue (s : State) (n : LineNo) :
    (s.leaveQueue n).attention = s.attention := rfl
@[simp] theorem State.bus_leaveQueue (s : State) (n : LineNo) :
    (s.leaveQueue n).bus = s.bus := rfl
@[simp] theorem State.plan_leaveQueue (s : State) (n : LineNo) :
    (s.leaveQueue n).plan = s.plan := rfl
@[simp] theorem State.pins_leaveQueue (s : State) (n : LineNo) :
    (s.leaveQueue n).pins = s.pins := rfl
@[simp] theorem State.mem_leaveQueue (s : State) (n : LineNo) :
    (s.leaveQueue n).mem = s.mem := rfl
@[simp] theorem State.freeUses_leaveQueue (s : State) (n : LineNo) :
    (s.leaveQueue n).freeUses = s.freeUses := rfl
@[simp] theorem State.pending_leaveQueue (s : State) (n : LineNo) :
    (s.leaveQueue n).pending = s.pending := rfl
@[simp] theorem State.ctx_leaveQueue (s : State) (n : LineNo) (j : CtxNo) :
    (s.leaveQueue n).ctx j = s.ctx j := rfl
@[simp] theorem State.slot_leaveQueue (s : State) (n : LineNo) (j : SlotNo) :
    (s.leaveQueue n).slot j = s.slot j := rfl
@[simp] theorem State.session_leaveQueue (s : State) (n : LineNo) (m : LineNo) :
    (s.leaveQueue n).session m = s.session m := rfl
@[simp] theorem State.readMem_leaveQueue (s : State) (n : LineNo) (b : Addr) :
    (s.leaveQueue n).readMem b = s.readMem b := rfl
@[simp] theorem State.areaAddr_leaveQueue (s : State) (n : LineNo) (p : Offset) :
    (s.leaveQueue n).areaAddr p = s.areaAddr p := rfl

/-! ## `State.refreshAttn` -/

@[simp] theorem State.lines_refreshAttn (s : State) :
    (s.refreshAttn).lines = s.lines := rfl
@[simp] theorem State.answerQueue_refreshAttn (s : State) :
    (s.refreshAttn).answerQueue = s.answerQueue := rfl
@[simp] theorem State.contexts_refreshAttn (s : State) :
    (s.refreshAttn).contexts = s.contexts := rfl
@[simp] theorem State.fill_refreshAttn (s : State) :
    (s.refreshAttn).fill = s.fill := rfl
@[simp] theorem State.directory_refreshAttn (s : State) :
    (s.refreshAttn).directory = s.directory := rfl
@[simp] theorem State.meter_refreshAttn (s : State) :
    (s.refreshAttn).meter = s.meter := rfl
@[simp] theorem State.journal_refreshAttn (s : State) :
    (s.refreshAttn).journal = s.journal := rfl
@[simp] theorem State.attention_refreshAttn (s : State) :
    (s.refreshAttn).attention = s.attention := rfl
@[simp] theorem State.bus_refreshAttn (s : State) :
    (s.refreshAttn).bus = s.bus := rfl
@[simp] theorem State.plan_refreshAttn (s : State) :
    (s.refreshAttn).plan = s.plan := rfl
@[simp] theorem State.pins_refreshAttn (s : State) :
    (s.refreshAttn).pins = { s.pins with attn := s.attention.anyPollable } := rfl
@[simp] theorem State.mem_refreshAttn (s : State) :
    (s.refreshAttn).mem = s.mem := rfl
@[simp] theorem State.freeUses_refreshAttn (s : State) :
    (s.refreshAttn).freeUses = s.freeUses := rfl
@[simp] theorem State.pending_refreshAttn (s : State) :
    (s.refreshAttn).pending = s.pending := rfl
@[simp] theorem State.line_refreshAttn (s : State) (m : LineNo) :
    (s.refreshAttn).line m = s.line m := rfl
@[simp] theorem State.ctx_refreshAttn (s : State) (j : CtxNo) :
    (s.refreshAttn).ctx j = s.ctx j := rfl
@[simp] theorem State.slot_refreshAttn (s : State) (j : SlotNo) :
    (s.refreshAttn).slot j = s.slot j := rfl
@[simp] theorem State.session_refreshAttn (s : State) (m : LineNo) :
    (s.refreshAttn).session m = s.session m := rfl
@[simp] theorem State.readMem_refreshAttn (s : State) (b : Addr) :
    (s.refreshAttn).readMem b = s.readMem b := rfl
@[simp] theorem State.areaAddr_refreshAttn (s : State) (p : Offset) :
    (s.refreshAttn).areaAddr p = s.areaAddr p := rfl

/-! ## `State.withdrawLookup` -/

@[simp] theorem State.lines_withdrawLookup (s : State) (k : CtxNo) :
    (s.withdrawLookup k).lines = s.lines := rfl
@[simp] theorem State.answerQueue_withdrawLookup (s : State) (k : CtxNo) :
    (s.withdrawLookup k).answerQueue = s.answerQueue := rfl
@[simp] theorem State.contexts_withdrawLookup (s : State) (k : CtxNo) :
    (s.withdrawLookup k).contexts = s.contexts := rfl
@[simp] theorem State.fill_withdrawLookup (s : State) (k : CtxNo) :
    (s.withdrawLookup k).fill = s.fill := rfl
@[simp] theorem State.directory_withdrawLookup (s : State) (k : CtxNo) :
    (s.withdrawLookup k).directory = { s.directory with
      queue := s.directory.queue.filter fun q => !q.isLookupOf k } := rfl
@[simp] theorem State.meter_withdrawLookup (s : State) (k : CtxNo) :
    (s.withdrawLookup k).meter = s.meter := rfl
@[simp] theorem State.journal_withdrawLookup (s : State) (k : CtxNo) :
    (s.withdrawLookup k).journal = s.journal := rfl
@[simp] theorem State.attention_withdrawLookup (s : State) (k : CtxNo) :
    (s.withdrawLookup k).attention = s.attention := rfl
@[simp] theorem State.bus_withdrawLookup (s : State) (k : CtxNo) :
    (s.withdrawLookup k).bus = s.bus := rfl
@[simp] theorem State.plan_withdrawLookup (s : State) (k : CtxNo) :
    (s.withdrawLookup k).plan = s.plan := rfl
@[simp] theorem State.pins_withdrawLookup (s : State) (k : CtxNo) :
    (s.withdrawLookup k).pins = s.pins := rfl
@[simp] theorem State.mem_withdrawLookup (s : State) (k : CtxNo) :
    (s.withdrawLookup k).mem = s.mem := rfl
@[simp] theorem State.freeUses_withdrawLookup (s : State) (k : CtxNo) :
    (s.withdrawLookup k).freeUses = s.freeUses := rfl
@[simp] theorem State.pending_withdrawLookup (s : State) (k : CtxNo) :
    (s.withdrawLookup k).pending = s.pending := rfl
@[simp] theorem State.line_withdrawLookup (s : State) (k : CtxNo) (m : LineNo) :
    (s.withdrawLookup k).line m = s.line m := rfl
@[simp] theorem State.ctx_withdrawLookup (s : State) (k : CtxNo) (j : CtxNo) :
    (s.withdrawLookup k).ctx j = s.ctx j := rfl
@[simp] theorem State.slot_withdrawLookup (s : State) (k : CtxNo) (j : SlotNo) :
    (s.withdrawLookup k).slot j = s.slot j := rfl
@[simp] theorem State.session_withdrawLookup (s : State) (k : CtxNo) (m : LineNo) :
    (s.withdrawLookup k).session m = s.session m := rfl
@[simp] theorem State.readMem_withdrawLookup (s : State) (k : CtxNo) (b : Addr) :
    (s.withdrawLookup k).readMem b = s.readMem b := rfl
@[simp] theorem State.areaAddr_withdrawLookup (s : State) (k : CtxNo) (p : Offset) :
    (s.withdrawLookup k).areaAddr p = s.areaAddr p := rfl

/-! ## `State.queueRecord` -/

@[simp] theorem State.lines_queueRecord (s : State) (r : JournalRecord) :
    (s.queueRecord r).lines = s.lines := rfl
@[simp] theorem State.answerQueue_queueRecord (s : State) (r : JournalRecord) :
    (s.queueRecord r).answerQueue = s.answerQueue := rfl
@[simp] theorem State.contexts_queueRecord (s : State) (r : JournalRecord) :
    (s.queueRecord r).contexts = s.contexts := rfl
@[simp] theorem State.fill_queueRecord (s : State) (r : JournalRecord) :
    (s.queueRecord r).fill = s.fill := rfl
@[simp] theorem State.directory_queueRecord (s : State) (r : JournalRecord) :
    (s.queueRecord r).directory = s.directory := rfl
@[simp] theorem State.meter_queueRecord (s : State) (r : JournalRecord) :
    (s.queueRecord r).meter = s.meter := rfl
@[simp] theorem State.journal_queueRecord (s : State) (r : JournalRecord) :
    (s.queueRecord r).journal = { s.journal with
      queue := s.journal.queue ++ [r], sequence := s.journal.sequence + 1 } := rfl
@[simp] theorem State.attention_queueRecord (s : State) (r : JournalRecord) :
    (s.queueRecord r).attention = s.attention := rfl
@[simp] theorem State.bus_queueRecord (s : State) (r : JournalRecord) :
    (s.queueRecord r).bus = s.bus := rfl
@[simp] theorem State.plan_queueRecord (s : State) (r : JournalRecord) :
    (s.queueRecord r).plan = s.plan := rfl
@[simp] theorem State.pins_queueRecord (s : State) (r : JournalRecord) :
    (s.queueRecord r).pins = s.pins := rfl
@[simp] theorem State.mem_queueRecord (s : State) (r : JournalRecord) :
    (s.queueRecord r).mem = s.mem := rfl
@[simp] theorem State.freeUses_queueRecord (s : State) (r : JournalRecord) :
    (s.queueRecord r).freeUses = s.freeUses := rfl
@[simp] theorem State.pending_queueRecord (s : State) (r : JournalRecord) :
    (s.queueRecord r).pending = s.pending := rfl
@[simp] theorem State.line_queueRecord (s : State) (r : JournalRecord) (m : LineNo) :
    (s.queueRecord r).line m = s.line m := rfl
@[simp] theorem State.ctx_queueRecord (s : State) (r : JournalRecord) (j : CtxNo) :
    (s.queueRecord r).ctx j = s.ctx j := rfl
@[simp] theorem State.slot_queueRecord (s : State) (r : JournalRecord) (j : SlotNo) :
    (s.queueRecord r).slot j = s.slot j := rfl
@[simp] theorem State.session_queueRecord (s : State) (r : JournalRecord) (m : LineNo) :
    (s.queueRecord r).session m = s.session m := rfl
@[simp] theorem State.readMem_queueRecord (s : State) (r : JournalRecord) (b : Addr) :
    (s.queueRecord r).readMem b = s.readMem b := rfl
@[simp] theorem State.areaAddr_queueRecord (s : State) (r : JournalRecord) (p : Offset) :
    (s.queueRecord r).areaAddr p = s.areaAddr p := rfl

/-! ## `State.setCensus` -/

@[simp] theorem State.lines_setCensus (s : State) (c : Census) :
    (s.setCensus c).lines = s.lines := rfl
@[simp] theorem State.answerQueue_setCensus (s : State) (c : Census) :
    (s.setCensus c).answerQueue = s.answerQueue := rfl
@[simp] theorem State.contexts_setCensus (s : State) (c : Census) :
    (s.setCensus c).contexts = s.contexts := rfl
@[simp] theorem State.fill_setCensus (s : State) (c : Census) :
    (s.setCensus c).fill = s.fill := rfl
@[simp] theorem State.directory_setCensus (s : State) (c : Census) :
    (s.setCensus c).directory = { s.directory with census := c } := rfl
@[simp] theorem State.meter_setCensus (s : State) (c : Census) :
    (s.setCensus c).meter = s.meter := rfl
@[simp] theorem State.journal_setCensus (s : State) (c : Census) :
    (s.setCensus c).journal = s.journal := rfl
@[simp] theorem State.attention_setCensus (s : State) (c : Census) :
    (s.setCensus c).attention = s.attention := rfl
@[simp] theorem State.bus_setCensus (s : State) (c : Census) :
    (s.setCensus c).bus = s.bus := rfl
@[simp] theorem State.plan_setCensus (s : State) (c : Census) :
    (s.setCensus c).plan = s.plan := rfl
@[simp] theorem State.pins_setCensus (s : State) (c : Census) :
    (s.setCensus c).pins = s.pins := rfl
@[simp] theorem State.mem_setCensus (s : State) (c : Census) :
    (s.setCensus c).mem = s.mem := rfl
@[simp] theorem State.freeUses_setCensus (s : State) (c : Census) :
    (s.setCensus c).freeUses = s.freeUses := rfl
@[simp] theorem State.pending_setCensus (s : State) (c : Census) :
    (s.setCensus c).pending = s.pending := rfl
@[simp] theorem State.line_setCensus (s : State) (c : Census) (m : LineNo) :
    (s.setCensus c).line m = s.line m := rfl
@[simp] theorem State.ctx_setCensus (s : State) (c : Census) (j : CtxNo) :
    (s.setCensus c).ctx j = s.ctx j := rfl
@[simp] theorem State.slot_setCensus (s : State) (c : Census) (j : SlotNo) :
    (s.setCensus c).slot j = s.slot j := rfl
@[simp] theorem State.session_setCensus (s : State) (c : Census) (m : LineNo) :
    (s.setCensus c).session m = s.session m := rfl
@[simp] theorem State.readMem_setCensus (s : State) (c : Census) (b : Addr) :
    (s.setCensus c).readMem b = s.readMem b := rfl
@[simp] theorem State.areaAddr_setCensus (s : State) (c : Census) (p : Offset) :
    (s.setCensus c).areaAddr p = s.areaAddr p := rfl

/-! ## `State.setStaging` -/

@[simp] theorem State.lines_setStaging (s : State) (g : Staging) :
    (s.setStaging g).lines = s.lines := rfl
@[simp] theorem State.answerQueue_setStaging (s : State) (g : Staging) :
    (s.setStaging g).answerQueue = s.answerQueue := rfl
@[simp] theorem State.contexts_setStaging (s : State) (g : Staging) :
    (s.setStaging g).contexts = s.contexts := rfl
@[simp] theorem State.fill_setStaging (s : State) (g : Staging) :
    (s.setStaging g).fill = s.fill := rfl
@[simp] theorem State.directory_setStaging (s : State) (g : Staging) :
    (s.setStaging g).directory = { s.directory with staging := g } := rfl
@[simp] theorem State.meter_setStaging (s : State) (g : Staging) :
    (s.setStaging g).meter = s.meter := rfl
@[simp] theorem State.journal_setStaging (s : State) (g : Staging) :
    (s.setStaging g).journal = s.journal := rfl
@[simp] theorem State.attention_setStaging (s : State) (g : Staging) :
    (s.setStaging g).attention = s.attention := rfl
@[simp] theorem State.bus_setStaging (s : State) (g : Staging) :
    (s.setStaging g).bus = s.bus := rfl
@[simp] theorem State.plan_setStaging (s : State) (g : Staging) :
    (s.setStaging g).plan = s.plan := rfl
@[simp] theorem State.pins_setStaging (s : State) (g : Staging) :
    (s.setStaging g).pins = s.pins := rfl
@[simp] theorem State.mem_setStaging (s : State) (g : Staging) :
    (s.setStaging g).mem = s.mem := rfl
@[simp] theorem State.freeUses_setStaging (s : State) (g : Staging) :
    (s.setStaging g).freeUses = s.freeUses := rfl
@[simp] theorem State.pending_setStaging (s : State) (g : Staging) :
    (s.setStaging g).pending = s.pending := rfl
@[simp] theorem State.line_setStaging (s : State) (g : Staging) (m : LineNo) :
    (s.setStaging g).line m = s.line m := rfl
@[simp] theorem State.ctx_setStaging (s : State) (g : Staging) (j : CtxNo) :
    (s.setStaging g).ctx j = s.ctx j := rfl
@[simp] theorem State.slot_setStaging (s : State) (g : Staging) (j : SlotNo) :
    (s.setStaging g).slot j = s.slot j := rfl
@[simp] theorem State.session_setStaging (s : State) (g : Staging) (m : LineNo) :
    (s.setStaging g).session m = s.session m := rfl
@[simp] theorem State.readMem_setStaging (s : State) (g : Staging) (b : Addr) :
    (s.setStaging g).readMem b = s.readMem b := rfl
@[simp] theorem State.areaAddr_setStaging (s : State) (g : Staging) (p : Offset) :
    (s.setStaging g).areaAddr p = s.areaAddr p := rfl

/-! ## `State.setAttention` -/

@[simp] theorem State.lines_setAttention (s : State) (a : Attention) :
    (s.setAttention a).lines = s.lines := rfl
@[simp] theorem State.answerQueue_setAttention (s : State) (a : Attention) :
    (s.setAttention a).answerQueue = s.answerQueue := rfl
@[simp] theorem State.contexts_setAttention (s : State) (a : Attention) :
    (s.setAttention a).contexts = s.contexts := rfl
@[simp] theorem State.fill_setAttention (s : State) (a : Attention) :
    (s.setAttention a).fill = s.fill := rfl
@[simp] theorem State.directory_setAttention (s : State) (a : Attention) :
    (s.setAttention a).directory = s.directory := rfl
@[simp] theorem State.meter_setAttention (s : State) (a : Attention) :
    (s.setAttention a).meter = s.meter := rfl
@[simp] theorem State.journal_setAttention (s : State) (a : Attention) :
    (s.setAttention a).journal = s.journal := rfl
@[simp] theorem State.attention_setAttention (s : State) (a : Attention) :
    (s.setAttention a).attention = a := rfl
@[simp] theorem State.bus_setAttention (s : State) (a : Attention) :
    (s.setAttention a).bus = s.bus := rfl
@[simp] theorem State.plan_setAttention (s : State) (a : Attention) :
    (s.setAttention a).plan = s.plan := rfl
@[simp] theorem State.pins_setAttention (s : State) (a : Attention) :
    (s.setAttention a).pins = s.pins := rfl
@[simp] theorem State.mem_setAttention (s : State) (a : Attention) :
    (s.setAttention a).mem = s.mem := rfl
@[simp] theorem State.freeUses_setAttention (s : State) (a : Attention) :
    (s.setAttention a).freeUses = s.freeUses := rfl
@[simp] theorem State.pending_setAttention (s : State) (a : Attention) :
    (s.setAttention a).pending = s.pending := rfl
@[simp] theorem State.line_setAttention (s : State) (a : Attention) (m : LineNo) :
    (s.setAttention a).line m = s.line m := rfl
@[simp] theorem State.ctx_setAttention (s : State) (a : Attention) (j : CtxNo) :
    (s.setAttention a).ctx j = s.ctx j := rfl
@[simp] theorem State.slot_setAttention (s : State) (a : Attention) (j : SlotNo) :
    (s.setAttention a).slot j = s.slot j := rfl
@[simp] theorem State.session_setAttention (s : State) (a : Attention) (m : LineNo) :
    (s.setAttention a).session m = s.session m := rfl
@[simp] theorem State.readMem_setAttention (s : State) (a : Attention) (b : Addr) :
    (s.setAttention a).readMem b = s.readMem b := rfl
@[simp] theorem State.areaAddr_setAttention (s : State) (a : Attention) (p : Offset) :
    (s.setAttention a).areaAddr p = s.areaAddr p := rfl

/-! ## `State.setPlan` -/

@[simp] theorem State.lines_setPlan (s : State) (x : Plan) :
    (s.setPlan x).lines = s.lines := rfl
@[simp] theorem State.answerQueue_setPlan (s : State) (x : Plan) :
    (s.setPlan x).answerQueue = s.answerQueue := rfl
@[simp] theorem State.contexts_setPlan (s : State) (x : Plan) :
    (s.setPlan x).contexts = s.contexts := rfl
@[simp] theorem State.fill_setPlan (s : State) (x : Plan) :
    (s.setPlan x).fill = s.fill := rfl
@[simp] theorem State.directory_setPlan (s : State) (x : Plan) :
    (s.setPlan x).directory = s.directory := rfl
@[simp] theorem State.meter_setPlan (s : State) (x : Plan) :
    (s.setPlan x).meter = s.meter := rfl
@[simp] theorem State.journal_setPlan (s : State) (x : Plan) :
    (s.setPlan x).journal = s.journal := rfl
@[simp] theorem State.attention_setPlan (s : State) (x : Plan) :
    (s.setPlan x).attention = s.attention := rfl
@[simp] theorem State.bus_setPlan (s : State) (x : Plan) :
    (s.setPlan x).bus = s.bus := rfl
@[simp] theorem State.plan_setPlan (s : State) (x : Plan) :
    (s.setPlan x).plan = x := rfl
@[simp] theorem State.pins_setPlan (s : State) (x : Plan) :
    (s.setPlan x).pins = s.pins := rfl
@[simp] theorem State.mem_setPlan (s : State) (x : Plan) :
    (s.setPlan x).mem = s.mem := rfl
@[simp] theorem State.freeUses_setPlan (s : State) (x : Plan) :
    (s.setPlan x).freeUses = s.freeUses := rfl
@[simp] theorem State.pending_setPlan (s : State) (x : Plan) :
    (s.setPlan x).pending = s.pending := rfl
@[simp] theorem State.line_setPlan (s : State) (x : Plan) (m : LineNo) :
    (s.setPlan x).line m = s.line m := rfl
@[simp] theorem State.ctx_setPlan (s : State) (x : Plan) (j : CtxNo) :
    (s.setPlan x).ctx j = s.ctx j := rfl
@[simp] theorem State.slot_setPlan (s : State) (x : Plan) (j : SlotNo) :
    (s.setPlan x).slot j = s.slot j := rfl
@[simp] theorem State.session_setPlan (s : State) (x : Plan) (m : LineNo) :
    (s.setPlan x).session m = s.session m := rfl
@[simp] theorem State.readMem_setPlan (s : State) (x : Plan) (b : Addr) :
    (s.setPlan x).readMem b = s.readMem b := rfl
@[simp] theorem State.areaAddr_setPlan (s : State) (x : Plan) (p : Offset) :
    (s.setPlan x).areaAddr p = s.areaAddr p := rfl

/-! ## `State.setWindow` -/

@[simp] theorem State.lines_setWindow (s : State) (w : Option Window) :
    (s.setWindow w).lines = s.lines := rfl
@[simp] theorem State.answerQueue_setWindow (s : State) (w : Option Window) :
    (s.setWindow w).answerQueue = s.answerQueue := rfl
@[simp] theorem State.contexts_setWindow (s : State) (w : Option Window) :
    (s.setWindow w).contexts = s.contexts := rfl
@[simp] theorem State.fill_setWindow (s : State) (w : Option Window) :
    (s.setWindow w).fill = s.fill := rfl
@[simp] theorem State.directory_setWindow (s : State) (w : Option Window) :
    (s.setWindow w).directory = s.directory := rfl
@[simp] theorem State.meter_setWindow (s : State) (w : Option Window) :
    (s.setWindow w).meter = s.meter := rfl
@[simp] theorem State.journal_setWindow (s : State) (w : Option Window) :
    (s.setWindow w).journal = { s.journal with window := w } := rfl
@[simp] theorem State.attention_setWindow (s : State) (w : Option Window) :
    (s.setWindow w).attention = s.attention := rfl
@[simp] theorem State.bus_setWindow (s : State) (w : Option Window) :
    (s.setWindow w).bus = s.bus := rfl
@[simp] theorem State.plan_setWindow (s : State) (w : Option Window) :
    (s.setWindow w).plan = s.plan := rfl
@[simp] theorem State.pins_setWindow (s : State) (w : Option Window) :
    (s.setWindow w).pins = s.pins := rfl
@[simp] theorem State.mem_setWindow (s : State) (w : Option Window) :
    (s.setWindow w).mem = s.mem := rfl
@[simp] theorem State.freeUses_setWindow (s : State) (w : Option Window) :
    (s.setWindow w).freeUses = s.freeUses := rfl
@[simp] theorem State.pending_setWindow (s : State) (w : Option Window) :
    (s.setWindow w).pending = s.pending := rfl
@[simp] theorem State.line_setWindow (s : State) (w : Option Window) (m : LineNo) :
    (s.setWindow w).line m = s.line m := rfl
@[simp] theorem State.ctx_setWindow (s : State) (w : Option Window) (j : CtxNo) :
    (s.setWindow w).ctx j = s.ctx j := rfl
@[simp] theorem State.slot_setWindow (s : State) (w : Option Window) (j : SlotNo) :
    (s.setWindow w).slot j = s.slot j := rfl
@[simp] theorem State.session_setWindow (s : State) (w : Option Window) (m : LineNo) :
    (s.setWindow w).session m = s.session m := rfl
@[simp] theorem State.readMem_setWindow (s : State) (w : Option Window) (b : Addr) :
    (s.setWindow w).readMem b = s.readMem b := rfl
@[simp] theorem State.areaAddr_setWindow (s : State) (w : Option Window) (p : Offset) :
    (s.setWindow w).areaAddr p = s.areaAddr p := rfl

/-! ## `State.setOwner` -/

@[simp] theorem State.lines_setOwner (s : State) (o : Owner) :
    (s.setOwner o).lines = s.lines := rfl
@[simp] theorem State.answerQueue_setOwner (s : State) (o : Owner) :
    (s.setOwner o).answerQueue = s.answerQueue := rfl
@[simp] theorem State.contexts_setOwner (s : State) (o : Owner) :
    (s.setOwner o).contexts = s.contexts := rfl
@[simp] theorem State.fill_setOwner (s : State) (o : Owner) :
    (s.setOwner o).fill = s.fill := rfl
@[simp] theorem State.directory_setOwner (s : State) (o : Owner) :
    (s.setOwner o).directory = s.directory := rfl
@[simp] theorem State.meter_setOwner (s : State) (o : Owner) :
    (s.setOwner o).meter = s.meter := rfl
@[simp] theorem State.journal_setOwner (s : State) (o : Owner) :
    (s.setOwner o).journal = s.journal := rfl
@[simp] theorem State.attention_setOwner (s : State) (o : Owner) :
    (s.setOwner o).attention = s.attention := rfl
@[simp] theorem State.bus_setOwner (s : State) (o : Owner) :
    (s.setOwner o).bus = { s.bus with owner := o, restarted := false } := rfl
@[simp] theorem State.plan_setOwner (s : State) (o : Owner) :
    (s.setOwner o).plan = s.plan := rfl
@[simp] theorem State.pins_setOwner (s : State) (o : Owner) :
    (s.setOwner o).pins = s.pins := rfl
@[simp] theorem State.mem_setOwner (s : State) (o : Owner) :
    (s.setOwner o).mem = s.mem := rfl
@[simp] theorem State.freeUses_setOwner (s : State) (o : Owner) :
    (s.setOwner o).freeUses = s.freeUses := rfl
@[simp] theorem State.pending_setOwner (s : State) (o : Owner) :
    (s.setOwner o).pending = s.pending := rfl
@[simp] theorem State.line_setOwner (s : State) (o : Owner) (m : LineNo) :
    (s.setOwner o).line m = s.line m := rfl
@[simp] theorem State.ctx_setOwner (s : State) (o : Owner) (j : CtxNo) :
    (s.setOwner o).ctx j = s.ctx j := rfl
@[simp] theorem State.slot_setOwner (s : State) (o : Owner) (j : SlotNo) :
    (s.setOwner o).slot j = s.slot j := rfl
@[simp] theorem State.session_setOwner (s : State) (o : Owner) (m : LineNo) :
    (s.setOwner o).session m = s.session m := rfl
@[simp] theorem State.readMem_setOwner (s : State) (o : Owner) (b : Addr) :
    (s.setOwner o).readMem b = s.readMem b := rfl
@[simp] theorem State.areaAddr_setOwner (s : State) (o : Owner) (p : Offset) :
    (s.setOwner o).areaAddr p = s.areaAddr p := rfl

/-! ## `State.enqueueCycle` -/

@[simp] theorem State.lines_enqueueCycle (s : State) (c : Cycle) :
    (s.enqueueCycle c).lines = s.lines := rfl
@[simp] theorem State.answerQueue_enqueueCycle (s : State) (c : Cycle) :
    (s.enqueueCycle c).answerQueue = s.answerQueue := rfl
@[simp] theorem State.contexts_enqueueCycle (s : State) (c : Cycle) :
    (s.enqueueCycle c).contexts = s.contexts := rfl
@[simp] theorem State.fill_enqueueCycle (s : State) (c : Cycle) :
    (s.enqueueCycle c).fill = s.fill := rfl
@[simp] theorem State.directory_enqueueCycle (s : State) (c : Cycle) :
    (s.enqueueCycle c).directory = s.directory := rfl
@[simp] theorem State.meter_enqueueCycle (s : State) (c : Cycle) :
    (s.enqueueCycle c).meter = s.meter := rfl
@[simp] theorem State.journal_enqueueCycle (s : State) (c : Cycle) :
    (s.enqueueCycle c).journal = s.journal := rfl
@[simp] theorem State.attention_enqueueCycle (s : State) (c : Cycle) :
    (s.enqueueCycle c).attention = s.attention := rfl
@[simp] theorem State.bus_enqueueCycle (s : State) (c : Cycle) :
    (s.enqueueCycle c).bus = { s.bus with waiting := s.bus.waiting ++ [c] } := rfl
@[simp] theorem State.plan_enqueueCycle (s : State) (c : Cycle) :
    (s.enqueueCycle c).plan = s.plan := rfl
@[simp] theorem State.pins_enqueueCycle (s : State) (c : Cycle) :
    (s.enqueueCycle c).pins = s.pins := rfl
@[simp] theorem State.mem_enqueueCycle (s : State) (c : Cycle) :
    (s.enqueueCycle c).mem = s.mem := rfl
@[simp] theorem State.freeUses_enqueueCycle (s : State) (c : Cycle) :
    (s.enqueueCycle c).freeUses = s.freeUses := rfl
@[simp] theorem State.pending_enqueueCycle (s : State) (c : Cycle) :
    (s.enqueueCycle c).pending = s.pending := rfl
@[simp] theorem State.line_enqueueCycle (s : State) (c : Cycle) (m : LineNo) :
    (s.enqueueCycle c).line m = s.line m := rfl
@[simp] theorem State.ctx_enqueueCycle (s : State) (c : Cycle) (j : CtxNo) :
    (s.enqueueCycle c).ctx j = s.ctx j := rfl
@[simp] theorem State.slot_enqueueCycle (s : State) (c : Cycle) (j : SlotNo) :
    (s.enqueueCycle c).slot j = s.slot j := rfl
@[simp] theorem State.session_enqueueCycle (s : State) (c : Cycle) (m : LineNo) :
    (s.enqueueCycle c).session m = s.session m := rfl
@[simp] theorem State.readMem_enqueueCycle (s : State) (c : Cycle) (b : Addr) :
    (s.enqueueCycle c).readMem b = s.readMem b := rfl
@[simp] theorem State.areaAddr_enqueueCycle (s : State) (c : Cycle) (p : Offset) :
    (s.enqueueCycle c).areaAddr p = s.areaAddr p := rfl

/-! ## `Pins.setBrdy` -/

@[simp] theorem Pins.porn_setBrdy (p : Pins) (d : Master) (level : Bool) :
    (p.setBrdy d level).porn = p.porn := by cases d <;> rfl
@[simp] theorem Pins.attn_setBrdy (p : Pins) (d : Master) (level : Bool) :
    (p.setBrdy d level).attn = p.attn := by cases d <;> rfl
@[simp] theorem Pins.bd_setBrdy (p : Pins) (d : Master) (level : Bool) :
    (p.setBrdy d level).bd = p.bd := by cases d <;> rfl
@[simp] theorem Pins.presented_setBrdy (p : Pins) (d : Master) (level : Bool) :
    (p.setBrdy d level).presented = p.presented := by cases d <;> rfl
@[simp] theorem Pins.brdy_setBrdy (p : Pins) (d e : Master) (level : Bool) :
    (p.setBrdy d level).brdy e = if e = d then level else p.brdy e := by
  cases d <;> cases e <;> rfl

/-! ## `State.setBrdy` -/

@[simp] theorem State.lines_setBrdy (s : State) (d : Master) (level : Bool) :
    (s.setBrdy d level).lines = s.lines := rfl
@[simp] theorem State.answerQueue_setBrdy (s : State) (d : Master) (level : Bool) :
    (s.setBrdy d level).answerQueue = s.answerQueue := rfl
@[simp] theorem State.contexts_setBrdy (s : State) (d : Master) (level : Bool) :
    (s.setBrdy d level).contexts = s.contexts := rfl
@[simp] theorem State.fill_setBrdy (s : State) (d : Master) (level : Bool) :
    (s.setBrdy d level).fill = s.fill := rfl
@[simp] theorem State.directory_setBrdy (s : State) (d : Master) (level : Bool) :
    (s.setBrdy d level).directory = s.directory := rfl
@[simp] theorem State.meter_setBrdy (s : State) (d : Master) (level : Bool) :
    (s.setBrdy d level).meter = s.meter := rfl
@[simp] theorem State.journal_setBrdy (s : State) (d : Master) (level : Bool) :
    (s.setBrdy d level).journal = s.journal := rfl
@[simp] theorem State.attention_setBrdy (s : State) (d : Master) (level : Bool) :
    (s.setBrdy d level).attention = s.attention := rfl
@[simp] theorem State.bus_setBrdy (s : State) (d : Master) (level : Bool) :
    (s.setBrdy d level).bus = s.bus := rfl
@[simp] theorem State.plan_setBrdy (s : State) (d : Master) (level : Bool) :
    (s.setBrdy d level).plan = s.plan := rfl
@[simp] theorem State.pins_setBrdy (s : State) (d : Master) (level : Bool) :
    (s.setBrdy d level).pins = s.pins.setBrdy d level := rfl
@[simp] theorem State.mem_setBrdy (s : State) (d : Master) (level : Bool) :
    (s.setBrdy d level).mem = s.mem := rfl
@[simp] theorem State.freeUses_setBrdy (s : State) (d : Master) (level : Bool) :
    (s.setBrdy d level).freeUses = s.freeUses := rfl
@[simp] theorem State.pending_setBrdy (s : State) (d : Master) (level : Bool) :
    (s.setBrdy d level).pending = s.pending := rfl
@[simp] theorem State.line_setBrdy (s : State) (d : Master) (level : Bool) (m : LineNo) :
    (s.setBrdy d level).line m = s.line m := rfl
@[simp] theorem State.ctx_setBrdy (s : State) (d : Master) (level : Bool) (j : CtxNo) :
    (s.setBrdy d level).ctx j = s.ctx j := rfl
@[simp] theorem State.slot_setBrdy (s : State) (d : Master) (level : Bool) (j : SlotNo) :
    (s.setBrdy d level).slot j = s.slot j := rfl
@[simp] theorem State.session_setBrdy (s : State) (d : Master) (level : Bool) (m : LineNo) :
    (s.setBrdy d level).session m = s.session m := rfl
@[simp] theorem State.readMem_setBrdy (s : State) (d : Master) (level : Bool) (b : Addr) :
    (s.setBrdy d level).readMem b = s.readMem b := rfl
@[simp] theorem State.areaAddr_setBrdy (s : State) (d : Master) (level : Bool) (p : Offset) :
    (s.setBrdy d level).areaAddr p = s.areaAddr p := rfl

/-! ## The register files, read after a replacement -/

@[simp] theorem State.line_setLine_same (s : State) (n : LineNo) (r : LineRecord) :
    (s.setLine n r).line n = r := by simp [State.line]

theorem State.line_setLine_other (s : State) {n m : LineNo} (r : LineRecord) (h : m ≠ n) :
    (s.setLine n r).line m = s.line m := by
  simp [State.line, Fin.val_inj, Ne.symm h]

@[simp] theorem State.line_updLine_same (s : State) (n : LineNo) (f : LineRecord → LineRecord) :
    (s.updLine n f).line n = f (s.line n) := by simp [State.updLine]

theorem State.line_updLine_other (s : State) {n m : LineNo} (f : LineRecord → LineRecord)
    (h : m ≠ n) : (s.updLine n f).line m = s.line m := by
  simp [State.updLine, State.line_setLine_other _ _ h]

@[simp] theorem State.ctx_setCtx_same (s : State) (k : CtxNo) (c : Context) :
    (s.setCtx k c).ctx k = c := by simp [State.ctx]

theorem State.ctx_setCtx_other (s : State) {k j : CtxNo} (c : Context) (h : j ≠ k) :
    (s.setCtx k c).ctx j = s.ctx j := by
  simp [State.ctx, Fin.val_inj, Ne.symm h]

@[simp] theorem State.ctx_updCtx_same (s : State) (k : CtxNo) (f : Context → Context) :
    (s.updCtx k f).ctx k = f (s.ctx k) := by simp [State.updCtx]

theorem State.ctx_updCtx_other (s : State) {k j : CtxNo} (f : Context → Context) (h : j ≠ k) :
    (s.updCtx k f).ctx j = s.ctx j := by
  simp [State.updCtx, State.ctx_setCtx_other _ _ h]

@[simp] theorem State.slot_setSlot_same (s : State) (i : SlotNo) (a : Option Account) :
    (s.setSlot i a).slot i = a := by simp [State.slot]

theorem State.slot_setSlot_other (s : State) {i j : SlotNo} (a : Option Account) (h : j ≠ i) :
    (s.setSlot i a).slot j = s.slot j := by
  simp [State.slot, Fin.val_inj, Ne.symm h]

@[simp] theorem State.slot_updSlot_same (s : State) (i : SlotNo) (f : Account → Account) :
    (s.updSlot i f).slot i = (s.slot i).map f := by simp [State.updSlot]

theorem State.slot_updSlot_other (s : State) {i j : SlotNo} (f : Account → Account) (h : j ≠ i) :
    (s.updSlot i f).slot j = s.slot j := by
  simp [State.updSlot, State.slot_setSlot_other _ _ h]

@[simp] theorem State.session_setSession_same (s : State) (n : LineNo) (x : Option Session) :
    (s.setSession n x).session n = x := by simp [State.session]

theorem State.session_setSession_other (s : State) {n m : LineNo} (x : Option Session)
    (h : m ≠ n) : (s.setSession n x).session m = s.session m := by
  simp [State.session, Fin.val_inj, Ne.symm h]

@[simp] theorem State.session_updSession_same (s : State) (n : LineNo) (f : Session → Session) :
    (s.updSession n f).session n = (s.session n).map f := by simp [State.updSession]

theorem State.session_updSession_other (s : State) {n m : LineNo} (f : Session → Session)
    (h : m ≠ n) : (s.updSession n f).session m = s.session m := by
  simp [State.updSession, State.session_setSession_other _ _ h]

@[simp] theorem Attention.queue_setQueue_same (a : Attention) (k : ClassNo) (q : List Notice) :
    (a.setQueue k q).queue k = q := by simp [Attention.queue, Attention.setQueue]

theorem Attention.queue_setQueue_other (a : Attention) {k j : ClassNo} (q : List Notice)
    (h : j ≠ k) : (a.setQueue k q).queue j = a.queue j := by
  simp [Attention.queue, Attention.setQueue, Fin.val_inj, Ne.symm h]

@[simp] theorem Attention.served_setServed_same (a : Attention) (k : ClassNo) (e : Option Notice) :
    (a.setServed k e).served k = e := by simp [Attention.served, Attention.setServed]

theorem Attention.served_setServed_other (a : Attention) {k j : ClassNo} (e : Option Notice)
    (h : j ≠ k) : (a.setServed k e).served j = a.served j := by
  simp [Attention.served, Attention.setServed, Fin.val_inj, Ne.symm h]

@[simp] theorem Attention.served_setQueue (a : Attention) (k j : ClassNo) (q : List Notice) :
    (a.setQueue k q).served j = a.served j := rfl

@[simp] theorem Attention.queue_setServed (a : Attention) (k j : ClassNo) (e : Option Notice) :
    (a.setServed k e).queue j = a.queue j := rfl

@[simp] theorem Attention.inService_setQueue (a : Attention) (k : ClassNo) (q : List Notice) :
    (a.setQueue k q).inService = a.inService := rfl

@[simp] theorem Attention.autoDone_setQueue (a : Attention) (k : ClassNo) (q : List Notice) :
    (a.setQueue k q).autoDone = a.autoDone := rfl

@[simp] theorem Attention.autoRotate_setQueue (a : Attention) (k : ClassNo) (q : List Notice) :
    (a.setQueue k q).autoRotate = a.autoRotate := rfl

@[simp] theorem Attention.mask_setQueue (a : Attention) (k : ClassNo) (q : List Notice) :
    (a.setQueue k q).mask = a.mask := rfl

@[simp] theorem Attention.lowest_setQueue (a : Attention) (k : ClassNo) (q : List Notice) :
    (a.setQueue k q).lowest = a.lowest := rfl

@[simp] theorem Attention.specialMask_setQueue (a : Attention) (k : ClassNo) (q : List Notice) :
    (a.setQueue k q).specialMask = a.specialMask := rfl

end Sys2Proof.Machine
end

