-- ==== Sys2Proof/Laws/Memory.lean ====
section
/-!
SUPPORT. The memory array: what a read finds after a write, and that every write keeps the canonical
form.
-/

namespace Sys2Proof.Machine

/-- Every listed address of a canonical memory lies above its head. -/
theorem Memory.wf_tail_above {k : Nat} {v : Word} {m : Memory} (h : Memory.wf ((k, v) :: m) = true) :
    ∀ c ∈ m, k < c.1 := by
  simp only [Memory.wf, Bool.and_eq_true, List.all_eq_true, decide_eq_true_eq] at h
  exact h.1.1.1

/-- The tail of a canonical memory is canonical. -/
theorem Memory.wf_tail {c : Nat × Word} {m : Memory} (h : Memory.wf (c :: m) = true) :
    Memory.wf m = true := by
  obtain ⟨k, v⟩ := c
  simp only [Memory.wf, Bool.and_eq_true] at h
  exact h.2

/-- An address below every listed one reads as unwritten. -/
theorem Memory.read_below {m : Memory} {a : Nat} (h : ∀ c ∈ m, a < c.1) :
    Memory.read m a = Config.unwrittenWord := by
  induction m with
  | nil => rfl
  | cons c m ih =>
    obtain ⟨k, v⟩ := c
    have hk : a < k := h (k, v) (by simp)
    simp only [Memory.read, if_neg (Nat.ne_of_gt hk)]
    exact ih fun c hc => h c (by simp [hc])

/-- A write changes no other address. -/
theorem Memory.read_write_other (m : Memory) {a b : Nat} (v : Word) (h : b ≠ a) :
    Memory.read (Memory.write m a v) b = Memory.read m b := by
  induction m with
  | nil =>
    simp only [Memory.write]
    split
    · rfl
    · simp [Memory.read, Ne.symm h]
  | cons c m ih =>
    obtain ⟨k, w⟩ := c
    simp only [Memory.write]
    split
    · split
      · rfl
      · simp [Memory.read, Ne.symm h]
    · split
      · rename_i hak
        subst hak
        split
        · simp [Memory.read, Ne.symm h]
        · simp [Memory.read, Ne.symm h]
      · simp only [Memory.read, ih]

/-- In a canonical memory a written address reads as the word written. -/
theorem Memory.read_write_same (m : Memory) (a : Nat) (v : Word) (hm : Memory.wf m = true) :
    Memory.read (Memory.write m a v) a = v := by
  induction m with
  | nil =>
    simp only [Memory.write]
    split
    · rename_i hv; simp [Memory.read, hv]
    · simp [Memory.read]
  | cons c m ih =>
    obtain ⟨k, w⟩ := c
    have above := Memory.wf_tail_above hm
    simp only [Memory.write]
    split
    · rename_i hak
      split
      · rename_i hv
        rw [hv]
        refine Memory.read_below fun c hc => ?_
        rcases List.mem_cons.mp hc with rfl | hc
        · exact hak
        · exact Nat.lt_trans hak (above c hc)
      · simp [Memory.read]
    · split
      · rename_i hak
        subst hak
        split
        · rename_i hv
          rw [hv]
          exact Memory.read_below above
        · simp [Memory.read]
      · rename_i hka
        simp only [Memory.read, if_neg (Ne.symm hka)]
        exact ih (Memory.wf_tail hm)

/-- Every address listed after a write was listed before it or is the written one. -/
theorem Memory.mem_write {m : Memory} {a : Nat} {v : Word} {c : Nat × Word}
    (h : c ∈ Memory.write m a v) : c ∈ m ∨ c.1 = a := by
  induction m with
  | nil =>
    simp only [Memory.write] at h
    split at h
    · simp at h
    · simp at h; simp [h]
  | cons d m ih =>
    obtain ⟨k, w⟩ := d
    simp only [Memory.write] at h
    split at h
    · split at h
      · exact .inl h
      · rcases List.mem_cons.mp h with rfl | h
        · exact .inr rfl
        · exact .inl h
    · split at h
      · split at h
        · exact .inl (List.mem_cons_of_mem _ h)
        · rcases List.mem_cons.mp h with rfl | h
          · exact .inr rfl
          · exact .inl (List.mem_cons_of_mem _ h)
      · rcases List.mem_cons.mp h with rfl | h
        · exact .inl (by simp)
        · exact (ih h).imp (List.mem_cons_of_mem _) id

/-- A write of an 18-bit address keeps the canonical form. -/
theorem Memory.wf_write (m : Memory) {a : Nat} (v : Word) (ha : a < 2 ^ 18)
    (hm : Memory.wf m = true) : Memory.wf (Memory.write m a v) = true := by
  induction m with
  | nil =>
    simp only [Memory.write]
    split
    · rfl
    · rename_i hv; simp [Memory.wf, hv]; omega
  | cons c m ih =>
    obtain ⟨k, w⟩ := c
    have above := Memory.wf_tail_above hm
    have hm' := hm
    simp only [Memory.wf, Bool.and_eq_true, List.all_eq_true, decide_eq_true_eq] at hm'
    simp only [Memory.write]
    split
    · rename_i hak
      split
      · exact hm
      · rename_i hv
        simp only [Memory.wf, Bool.and_eq_true, List.all_eq_true, decide_eq_true_eq]
        refine ⟨⟨⟨fun c hc => ?_, by simpa using hv⟩, ha⟩, hm'⟩
        rcases List.mem_cons.mp hc with rfl | hc
        · exact hak
        · exact Nat.lt_trans hak (above c hc)
    · split
      · rename_i hak
        subst hak
        split
        · exact hm'.2
        · rename_i hv
          simp only [Memory.wf, Bool.and_eq_true, List.all_eq_true, decide_eq_true_eq]
          exact ⟨⟨⟨above, by simpa using hv⟩, ha⟩, hm'.2⟩
      · rename_i hak hka
        simp only [Memory.wf, Bool.and_eq_true, List.all_eq_true, decide_eq_true_eq]
        refine ⟨⟨⟨fun c hc => ?_, hm'.1.1.2⟩, hm'.1.2⟩, ih hm'.2⟩
        rcases Memory.mem_write hc with hc | hc
        · exact above c hc
        · omega

/-! ## The array as State holds it -/

theorem State.readMem_writeMem_same (s : State) (a : Addr) (v : Word)
    (h : Memory.wf s.mem = true) : (s.writeMem a v).readMem a = v :=
  Memory.read_write_same s.mem a.toNat v h

theorem State.readMem_writeMem_other (s : State) {a b : Addr} (v : Word) (h : b ≠ a) :
    (s.writeMem a v).readMem b = s.readMem b :=
  Memory.read_write_other s.mem v fun e => h (BitVec.eq_of_toNat_eq e)

theorem State.readMem_writeArea_same (s : State) (o : Offset) (v : Word)
    (h : Memory.wf s.mem = true) : (s.writeArea o v).readMem (s.areaAddr o) = v :=
  s.readMem_writeMem_same (s.areaAddr o) v h

theorem State.readMem_writeArea_other (s : State) (o : Offset) {b : Addr} (v : Word)
    (h : b ≠ s.areaAddr o) : (s.writeArea o v).readMem b = s.readMem b :=
  s.readMem_writeMem_other v h

theorem State.wf_writeMem (s : State) (a : Addr) (v : Word) (h : Memory.wf s.mem = true) :
    Memory.wf (s.writeMem a v).mem = true :=
  Memory.wf_write s.mem v a.isLt h

theorem State.wf_writeArea (s : State) (o : Offset) (v : Word) (h : Memory.wf s.mem = true) :
    Memory.wf (s.writeArea o v).mem = true :=
  s.wf_writeMem (s.areaAddr o) v h

/-- The area address of an offset is the address whose area offset it is (R155). -/
theorem State.areaOffset_areaAddr (s : State) (o : Offset) :
    s.areaOffset (s.areaAddr o) = some o := by
  have h1 : ∀ (x : BitVec 3) (y : BitVec 15), BitVec.extractLsb' 15 3 (x ++ y) = x := by
    intro x y
    ext i hi
    have h : ¬ 15 + i < 15 := by omega
    rw [BitVec.getElem_extractLsb', BitVec.getLsbD_append]
    simp [h, hi]
  have h2 : ∀ (x : BitVec 3) (y : BitVec 15), BitVec.extractLsb' 0 15 (x ++ y) = y := by
    intro x y
    ext i hi
    rw [BitVec.getElem_extractLsb', BitVec.getLsbD_append]
    simp [hi]
  have e1 := h1 s.bus.strap o
  have e2 := h2 s.bus.strap o
  exact (if_pos e1).trans (congrArg some e2)

/-- An address with an area offset is that offset's area address (R155). -/
theorem State.areaAddr_of_areaOffset {s : State} {a : Addr} {o : Offset}
    (h : s.areaOffset a = some o) : s.areaAddr o = a := by
  simp only [State.areaOffset] at h
  split at h
  · rename_i hs
    have ho := Option.some.inj h
    subst ho
    rw [State.areaAddr, ← hs]
    apply BitVec.eq_of_getLsbD_eq
    intro i hi
    rw [BitVec.getLsbD_append]
    by_cases hlt : i < 15
    · simp [hlt]
    · have h3 : i - 15 < 3 := by omega
      have h4 : 15 + (i - 15) = i := by omega
      simp [hlt, h3, h4]
  · exact absurd h (by simp)

end Sys2Proof.Machine
end

