-- ==== Sys2Proof/Laws/Ops.lean ====
section
/-!
SUPPORT. The frame of every shared operation: the blocks it can change, each said once, and the two
inductions (over grants and over sessions) by which the frames of larger operations follow.
-/

namespace Sys2Proof.Machine

set_option Elab.async false

/-! ## Frames compose -/

theorem SameBut.refl (bs : List Block) (s : State) : SameBut bs s s := by
  intro b _; cases b <;> simp [Block.same]

theorem SameBut.mono {as bs : List Block} {s t : State} (h : SameBut as s t)
    (sub : ∀ b ∈ as, b ∈ bs) : SameBut bs s t :=
  fun b hb => h b fun hm => hb (sub b hm)

theorem SameBut.trans {bs : List Block} {s t u : State} (h : SameBut bs s t)
    (h' : SameBut bs t u) : SameBut bs s u := by
  intro b hb
  have h1 := h b hb
  have h2 := h' b hb
  cases b <;> simp_all [Block.same]

/-- A frame followed by an operation of a smaller frame. -/
theorem SameBut.step {as bs : List Block} {s t u : State} (h : SameBut bs s t)
    (h' : SameBut as t u) (sub : ∀ b ∈ as, b ∈ bs := by decide) : SameBut bs s u :=
  h.trans (h'.mono sub)

theorem SameBut.ite {bs : List Block} {s t u : State} {c : Prop} [Decidable c]
    (h : SameBut bs s t) (h' : SameBut bs s u) : SameBut bs s (if c then t else u) := by
  split <;> assumption

/-! ## What a frame gives, field by field -/

theorem SameBut.line {bs : List Block} {s t : State} (h : SameBut bs s t)
    (hb : .lines ∉ bs := by decide) (n : LineNo) : t.line n = s.line n := by
  have h' : t.lines = s.lines := h .lines hb
  simp only [State.line, h']

theorem SameBut.ctx {bs : List Block} {s t : State} (h : SameBut bs s t)
    (hb : .contexts ∉ bs := by decide) (k : CtxNo) : t.ctx k = s.ctx k := by
  have h' : t.contexts = s.contexts := h .contexts hb
  simp only [State.ctx, h']

theorem SameBut.slot {bs : List Block} {s t : State} (h : SameBut bs s t)
    (hb : .slots ∉ bs := by decide) (i : SlotNo) : t.slot i = s.slot i := by
  have h' : t.directory.slots = s.directory.slots := h .slots hb
  simp only [State.slot, h']

theorem SameBut.session {bs : List Block} {s t : State} (h : SameBut bs s t)
    (hb : .sessions ∉ bs := by decide) (n : LineNo) : t.session n = s.session n := by
  have h' : t.meter.sessions = s.meter.sessions := h .sessions hb
  simp only [State.session, h']

theorem SameBut.readMem {bs : List Block} {s t : State} (h : SameBut bs s t)
    (hb : .mem ∉ bs := by decide) (a : Addr) : t.readMem a = s.readMem a := by
  have h' : t.mem = s.mem := h .mem hb
  simp only [State.readMem, h']

theorem SameBut.areaAddr {bs : List Block} {s t : State} (h : SameBut bs s t)
    (hb : .strap ∉ bs := by decide) (o : Offset) : t.areaAddr o = s.areaAddr o := by
  have h' : t.bus.strap = s.bus.strap := h .strap hb
  simp only [State.areaAddr, h']

theorem SameBut.queue {bs : List Block} {s t : State} (h : SameBut bs s t)
    (hb : .queues ∉ bs := by decide) (k : ClassNo) :
    t.attention.queue k = s.attention.queue k := by
  have h' : t.attention.queues = s.attention.queues := h .queues hb
  simp only [Attention.queue, h']

/-! ## The two inductions -/

/-- A property that every grant keeps is kept by a grant evaluation (R30). -/
theorem State.evaluateGrants_induction {P : State → Prop} {s : State} (h : P s)
    (step : ∀ t k n, P t → t.nextGrant = some (k, n) → P (t.grant k n)) : P s.evaluateGrants := by
  have go : ∀ fuel t, P t → P (State.grants fuel t) := by
    intro fuel
    induction fuel with
    | zero => intro t ht; exact ht
    | succ m ih =>
      intro t ht
      simp only [State.grants]
      split
      · rename_i k n hg
        exact ih _ (step t k n ht hg)
      · exact ht
  exact go 8 s h

/-- A property that every visit keeps is kept by a walk over the sessions (R110). -/
theorem State.forSessions_induction {P : State → Prop} {s : State}
    {f : LineNo → Session → State → State} (h : P s)
    (step : ∀ n x t, P t → t.session n = some x → P (f n x t)) : P (s.forSessions f) := by
  simp only [State.forSessions]
  generalize List.finRange 64 = ns
  induction ns generalizing s with
  | nil => exact h
  | cons n ns ih =>
    simp only [List.foldl_cons]
    apply ih
    split
    · rename_i x hx
      exact step n x s h hx
    · exact h

/-! ## The primitives -/

theorem State.frame_setLine (s : State) (n : LineNo) (r : LineRecord) :
    SameBut [.lines] s (s.setLine n r) := by
  intro b hb; cases b <;> first | exact absurd (by decide) hb | simp [Block.same]

theorem State.frame_updLine (s : State) (n : LineNo) (f : LineRecord → LineRecord) :
    SameBut [.lines] s (s.updLine n f) := by
  intro b hb; cases b <;> first | exact absurd (by decide) hb | simp [Block.same]

theorem State.frame_setCtx (s : State) (k : CtxNo) (c : Context) :
    SameBut [.contexts] s (s.setCtx k c) := by
  intro b hb; cases b <;> first | exact absurd (by decide) hb | simp [Block.same]

theorem State.frame_updCtx (s : State) (k : CtxNo) (f : Context → Context) :
    SameBut [.contexts] s (s.updCtx k f) := by
  intro b hb; cases b <;> first | exact absurd (by decide) hb | simp [Block.same]

theorem State.frame_setSlot (s : State) (i : SlotNo) (a : Option Account) :
    SameBut [.slots] s (s.setSlot i a) := by
  intro b hb; cases b <;> first | exact absurd (by decide) hb | simp [Block.same]

theorem State.frame_updSlot (s : State) (i : SlotNo) (f : Account → Account) :
    SameBut [.slots] s (s.updSlot i f) := by
  intro b hb; cases b <;> first | exact absurd (by decide) hb | simp [Block.same]

theorem State.frame_setSession (s : State) (n : LineNo) (x : Option Session) :
    SameBut [.sessions] s (s.setSession n x) := by
  intro b hb; cases b <;> first | exact absurd (by decide) hb | simp [Block.same]

theorem State.frame_updSession (s : State) (n : LineNo) (f : Session → Session) :
    SameBut [.sessions] s (s.updSession n f) := by
  intro b hb; cases b <;> first | exact absurd (by decide) hb | simp [Block.same]

theorem State.frame_writeMem (s : State) (a : Addr) (v : Word) :
    SameBut [.mem] s (s.writeMem a v) := by
  intro b hb; cases b <;> first | exact absurd (by decide) hb | simp [Block.same]

theorem State.frame_writeArea (s : State) (o : Offset) (v : Word) :
    SameBut [.mem] s (s.writeArea o v) := by
  intro b hb; cases b <;> first | exact absurd (by decide) hb | simp [Block.same]

theorem State.frame_setBd (s : State) (v : Word) :
    SameBut [.bd] s (s.setBd v) := by
  intro b hb; cases b <;> first | exact absurd (by decide) hb | simp [Block.same]

theorem State.frame_setBrdy (s : State) (d : Master) (level : Bool) :
    SameBut [.brdy] s (s.setBrdy d level) := by
  intro b hb; cases b <;> first | exact absurd (by decide) hb | simp [Block.same]

theorem State.frame_give (s : State) (e : Notice) :
    SameBut [.queues] s (s.give e) := by
  intro b hb; cases b <;> first | exact absurd (by decide) hb | simp [Block.same]

theorem State.frame_withdrawPrompts (s : State) (n : LineNo) :
    SameBut [.queues] s (s.withdrawPrompts n) := by
  intro b hb; cases b <;> first | exact absurd (by decide) hb | simp [Block.same]

theorem State.frame_hangUp (s : State) (n : LineNo) (m : Manner) :
    SameBut [.lines] s (s.hangUp n m) := by
  intro b hb; cases b <;> first | exact absurd (by decide) hb | simp [Block.same]

theorem State.frame_withdrawAnswer (s : State) (n : LineNo) :
    SameBut [.lines] s (s.withdrawAnswer n) := by
  intro b hb; cases b <;> first | exact absurd (by decide) hb | simp [Block.same]

theorem State.frame_enterClearing (s : State) (n : LineNo) :
    SameBut [.lines] s (s.enterClearing n) := by
  intro b hb; cases b <;> first | exact absurd (by decide) hb | simp [Block.same]

theorem State.frame_leaveQueue (s : State) (n : LineNo) :
    SameBut [.lines, .answerQueue] s (s.leaveQueue n) := by
  intro b hb; cases b <;> first | exact absurd (by decide) hb | simp [Block.same]

theorem State.frame_refreshAttn (s : State) :
    SameBut [] s (s.refreshAttn) := by
  intro b hb; cases b <;> first | exact absurd (by decide) hb | simp [Block.same]

theorem State.frame_withdrawLookup (s : State) (k : CtxNo) :
    SameBut [.requests] s (s.withdrawLookup k) := by
  intro b hb; cases b <;> first | exact absurd (by decide) hb | simp [Block.same]

theorem State.frame_queueRecord (s : State) (r : JournalRecord) :
    SameBut [.posting] s (s.queueRecord r) := by
  intro b hb; cases b <;> first | exact absurd (by decide) hb | simp [Block.same]

theorem State.frame_setCensus (s : State) (c : Census) :
    SameBut [.census] s (s.setCensus c) := by
  intro b hb; cases b <;> first | exact absurd (by decide) hb | simp [Block.same]

theorem State.frame_setStaging (s : State) (g : Staging) :
    SameBut [.staging] s (s.setStaging g) := by
  intro b hb; cases b <;> first | exact absurd (by decide) hb | simp [Block.same]

theorem State.frame_setAttention (s : State) (a : Attention) :
    SameBut [.queues, .inService, .priority] s (s.setAttention a) := by
  intro b hb; cases b <;> first | exact absurd (by decide) hb | simp [Block.same]

theorem State.frame_setPlan (s : State) (x : Plan) :
    SameBut [.plan] s (s.setPlan x) := by
  intro b hb; cases b <;> first | exact absurd (by decide) hb | simp [Block.same]

theorem State.frame_setWindow (s : State) (w : Option Window) :
    SameBut [.window] s (s.setWindow w) := by
  intro b hb; cases b <;> first | exact absurd (by decide) hb | simp [Block.same]

theorem State.frame_setOwner (s : State) (o : Owner) :
    SameBut [.memorySide] s (s.setOwner o) := by
  intro b hb; cases b <;> first | exact absurd (by decide) hb | simp [Block.same]

theorem State.frame_enqueueCycle (s : State) (c : Cycle) :
    SameBut [.memorySide] s (s.enqueueCycle c) := by
  intro b hb; cases b <;> first | exact absurd (by decide) hb | simp [Block.same]

/-! ## Answering -/

/-- The blocks a grant can change. -/
abbrev grantBlocks : List Block := [.lines, .answerQueue, .contexts, .queues]

theorem State.frame_reportCreditFall (s : State) (b : Nat) :
    SameBut [.queues] s (s.reportCreditFall b) :=
  SameBut.ite (s.frame_give _) (SameBut.refl _ _)

theorem State.frame_grant (s : State) (k : CtxNo) (n : LineNo) :
    SameBut grantBlocks s (s.grant k n) :=
  ((((s.frame_setCtx k _).mono (by decide)).step (State.frame_leaveQueue _ n)).step
    (State.frame_updLine _ n _)).step (State.frame_reportCreditFall _ _)

theorem State.frame_evaluateGrants (s : State) : SameBut grantBlocks s s.evaluateGrants :=
  State.evaluateGrants_induction (P := SameBut grantBlocks s) (SameBut.refl _ s)
    fun t k n h _ => h.trans (t.frame_grant k n)

theorem State.frame_releaseContext (s : State) (n : LineNo) :
    SameBut [.lines, .contexts, .requests] s (s.releaseContext n) := by
  simp only [State.releaseContext]
  split
  · refine SameBut.step (SameBut.step (SameBut.ite ?_ (SameBut.refl _ _))
      (State.frame_updCtx _ _ _)) (State.frame_updLine _ _ _)
    exact (s.frame_withdrawLookup _).mono (by decide)
  · exact SameBut.refl _ _

theorem State.frame_hangUpFor (s : State) (n : LineNo) (m : Option Manner) :
    SameBut [.lines] s (s.hangUpFor n m) := by
  cases m
  · exact s.frame_withdrawAnswer n
  · exact s.frame_hangUp n _

theorem State.frame_clearDialogue (s : State) (n : LineNo) (r : RejectReason) (m : Option Manner) :
    SameBut clearBlocks s (s.clearDialogue n r m) :=
  ((((((s.frame_give _).mono (by decide)).step (State.frame_withdrawPrompts _ n)).step
    (State.frame_releaseContext _ n)).step (State.frame_hangUpFor _ n m)).step
    (State.frame_enterClearing _ n)).step (State.frame_evaluateGrants _)

theorem State.frame_refuse (s : State) (m : Master) (o : Offset) :
    SameBut [.latch, .queues] s (s.refuse m o) := by
  simp only [State.refuse]
  split
  · intro b hb; cases b <;> first | exact absurd (by decide) hb | simp [Block.same]
  · refine SameBut.step ?_ (State.frame_give _ _)
    intro b hb; cases b <;> first | exact absurd (by decide) hb | simp [Block.same]

/-! ## Sessions -/

theorem State.frame_addReason (s : State) (n : LineNo) (g : GraceReason) :
    SameBut [.sessions, .queues] s (s.addReason n g) := by
  simp only [State.addReason]
  split
  · exact SameBut.refl _ _
  · split
    · exact ((s.frame_setSession _ _).mono (by decide)).step (State.frame_give _ _)
    · exact SameBut.ite (SameBut.refl _ _)
        (((s.frame_setSession _ _).mono (by decide)).step (State.frame_give _ _))

theorem State.frame_dropReason (s : State) (n : LineNo) (g : GraceReason) :
    SameBut [.sessions] s (s.dropReason n g) := s.frame_updSession n _

theorem State.frame_endEmptyGrace (s : State) (n : LineNo) :
    SameBut [.sessions] s (s.endEmptyGrace n) := s.frame_updSession n _

theorem State.frame_removeReason (s : State) (n : LineNo) (g : GraceReason) :
    SameBut [.sessions] s (s.removeReason n g) :=
  (s.frame_dropReason n g).step (State.frame_endEmptyGrace _ n)

theorem State.frame_judgeReason (s : State) (n : LineNo) (g : GraceReason) (due : Bool) :
    SameBut [.sessions, .queues] s (s.judgeReason n g due) :=
  SameBut.ite (s.frame_addReason n g) ((s.frame_removeReason n g).mono (by decide))

theorem State.frame_judgeBand (s : State) (n : LineNo) (i : SlotNo) :
    SameBut [.sessions, .queues] s (s.judgeBand n i) := by
  simp only [State.judgeBand]
  split
  · exact SameBut.refl _ _
  · exact SameBut.refl _ _
  · exact s.frame_judgeReason _ _ _

theorem State.frame_judgeLowBudget (s : State) (n : LineNo) (i : SlotNo) :
    SameBut [.sessions, .queues] s (s.judgeLowBudget n i) := by
  simp only [State.judgeLowBudget]
  split
  · exact SameBut.refl _ _
  · exact SameBut.ite (((s.frame_give _).mono (by decide)).step (State.frame_updSession _ _ _))
      (SameBut.refl _ _)

theorem State.frame_judgeOpenBand (s : State) (n : LineNo) (i : SlotNo) :
    SameBut [.sessions, .queues] s (s.judgeOpenBand n i) := by
  simp only [State.judgeOpenBand]
  split
  · exact SameBut.refl _ _
  · exact SameBut.ite (s.frame_addReason n _) (SameBut.refl _ _)

theorem State.frame_openSession (s : State) (n : LineNo) (i : SlotNo) :
    SameBut [.sessions, .queues] s (s.openSession n i) :=
  (((s.frame_setSession n _).mono (by decide)).step (State.frame_judgeLowBudget _ n i)).step
    (State.frame_judgeOpenBand _ n i)

theorem State.frame_closeSession (s : State) (n : LineNo) (r : CloseReason) (m : Option Manner) :
    SameBut closeBlocks s (s.closeSession n r m) := by
  simp only [State.closeSession]
  split
  · exact SameBut.refl _ _
  · refine SameBut.step ?_ (State.frame_enterClearing _ n)
    split
    · exact ((((((s.frame_queueRecord _).mono (by decide)).step (State.frame_updLine _ _ _)).step
        (State.frame_updSlot _ _ _)).step (State.frame_give _ _)).step
        (State.frame_setSession _ _ _)).step (State.frame_hangUp _ _ _)
    · exact (((((s.frame_queueRecord _).mono (by decide)).step (State.frame_updLine _ _ _)).step
        (State.frame_updSlot _ _ _)).step (State.frame_give _ _)).step
        (State.frame_setSession _ _ _)

theorem State.frame_graceExpired (s : State) (n : LineNo) :
    SameBut closeBlocks s (s.graceExpired n) := by
  simp only [State.graceExpired]
  split
  · exact SameBut.refl _ _
  · split
    · exact SameBut.refl _ _
    · exact SameBut.ite (s.frame_closeSession _ _ _) (SameBut.refl _ _)

theorem State.frame_idleExpired (s : State) (n : LineNo) :
    SameBut closeBlocks s (s.idleExpired n) := by
  simp only [State.idleExpired]
  split
  · exact SameBut.refl _ _
  · split
    · exact SameBut.refl _ _
    · exact SameBut.refl _ _
    · exact SameBut.ite (s.frame_closeSession _ _ _) (SameBut.refl _ _)

/-! ## The directory -/

theorem State.frame_markInService (s : State) (q : Request) :
    SameBut [.contexts] s (s.markInService q) := by
  simp only [State.markInService]
  split
  · exact SameBut.refl _ _
  · exact SameBut.ite (s.frame_updCtx _ _) (SameBut.refl _ _)

theorem State.frame_startService (s : State) : SameBut [.contexts, .requests] s s.startService := by
  simp only [State.startService]
  split
  · refine SameBut.step ?_ (State.frame_markInService _ _)
    intro b hb; cases b <;> first | exact absurd (by decide) hb | simp [Block.same]
  · exact SameBut.refl _ _

theorem State.frame_submit (s : State) (q : Request) :
    SameBut [.contexts, .requests] s (s.submit q) := by
  simp only [State.submit]
  refine SameBut.step ?_ (State.frame_startService _)
  intro b hb; cases b <;> first | exact absurd (by decide) hb | simp [Block.same]

theorem State.frame_lookupOwnEffect (s : State) (o : LookupOutcome) (i : Option SlotNo) :
    SameBut [.slots] s (s.lookupOwnEffect o i) := by
  simp only [State.lookupOwnEffect]
  split
  · exact s.frame_updSlot _ _
  · exact SameBut.refl _ _

theorem State.frame_rejectAttempt (s : State) (k : CtxNo) (n : LineNo) (r : RejectReason) :
    SameBut clearBlocks s (s.rejectAttempt k n r) := by
  refine SameBut.ite ?_ (s.frame_clearDialogue _ _ _)
  exact (((s.frame_updCtx k _).mono (by decide)).step (State.frame_updLine _ n _)).step
    (State.frame_give _ _)

/-- The blocks an applied completion can change. -/
abbrev applyBlocks : List Block :=
  [.lines, .answerQueue, .contexts, .queues, .requests, .slots, .sessions]

theorem State.frame_acceptCall (s : State) (k : CtxNo) (n : LineNo) (i : SlotNo) :
    SameBut applyBlocks s (s.acceptCall k n i) :=
  (((((((s.frame_updSlot i _).mono (by decide)).step (State.frame_updLine _ n _)).step
    (State.frame_updCtx _ k _)).step (State.frame_openSession _ n i)).step
    (State.frame_give _ _)).step (State.frame_withdrawPrompts _ n)).step
    (State.frame_evaluateGrants _)

theorem State.frame_endLookup (s : State) (k : CtxNo) :
    SameBut [.contexts] s (s.endLookup k) := s.frame_updCtx k _

theorem State.frame_applyOutcome (s : State) (k : CtxNo) (n : LineNo) (o : LookupOutcome)
    (i : Option SlotNo) : SameBut applyBlocks s (s.applyOutcome k n o i) := by
  have h := (s.frame_endLookup k).mono (bs := applyBlocks) (by decide)
  refine SameBut.ite ?_ (SameBut.refl _ _)
  dsimp only
  split
  · exact h.step (State.frame_acceptCall _ _ _ _)
  · exact h
  · exact h.step (State.frame_rejectAttempt _ _ _ _)

theorem State.frame_inService (s : State) (q : Option Request) :
    SameBut [.requests] s { s with directory := { s.directory with inService := q } } := by
  intro b hb; cases b <;> first | exact absurd (by decide) hb | simp [Block.same]

theorem State.frame_lookupCompleted (s : State) : SameBut applyBlocks s s.lookupCompleted := by
  simp only [State.lookupCompleted]
  split
  · exact ((((s.frame_inService none).mono (by decide)).step
      (State.frame_lookupOwnEffect _ _ _)).step (State.frame_applyOutcome _ _ _ _ _)).step
      (State.frame_startService _)
  · exact SameBut.refl _ _
  · exact SameBut.refl _ _

/-! ## Loading -/

theorem State.frame_writeStaging (s : State) (i : Fin 16) (w : Word) :
    SameBut [.mem, .staging, .latch, .queues] s (s.writeStaging i w) :=
  SameBut.ite
    (((s.frame_writeArea _ w).mono (by decide)).step (State.frame_refuse _ _ _))
    (((s.frame_writeArea _ w).mono (by decide)).step (State.frame_setStaging _ _))

theorem State.frame_writeCommit (s : State) (w : Word) :
    SameBut [.staging, .latch, .queues, .requests, .contexts] s (s.writeCommit w) := by
  refine SameBut.ite ((s.frame_refuse _ _).mono (by decide)) (SameBut.ite ?_ (SameBut.ite ?_ ?_))
  · exact ((s.frame_setStaging _).mono (by decide)).step (State.frame_give _ _)
  · exact ((s.frame_setStaging _).mono (by decide)).step (State.frame_give _ _)
  · exact ((s.frame_setStaging _).mono (by decide)).step (State.frame_submit _ _)

theorem State.frame_putReason (s : State) (n : LineNo) (g : GraceReason) (due : Bool) :
    SameBut [.sessions, .queues] s (s.putReason n g due) :=
  SameBut.ite (s.frame_addReason n g) ((s.frame_dropReason n g).mono (by decide))

theorem State.frame_alignGrace (s : State) (n : LineNo) (r : Staged) (a : Account) :
    SameBut [.sessions, .queues] s (s.alignGrace n r a) := by
  have h := s.frame_putReason n .noBudget a.budgetGone
  exact SameBut.step (SameBut.ite (h.step (State.frame_putReason _ _ _ _)) h)
    (State.frame_endEmptyGrace _ n)

theorem State.frame_alignGraces (s : State) (r : Staged) (i : SlotNo) :
    SameBut [.sessions, .queues] s (s.alignGraces r i) := by
  refine SameBut.ite ?_ (SameBut.refl _ _)
  refine State.forSessions_induction (P := SameBut [.sessions, .queues] s) (SameBut.refl _ s) ?_
  intro n x t h _
  split
  · exact h
  · exact SameBut.ite (h.step (t.frame_alignGrace _ _ _)) h

/-- What a reason put in a session's set or taken out of it makes of the session (R94, R113). -/
theorem State.session_putReason (s : State) {n : LineNo} {x : Session} (g : GraceReason) (due : Bool)
    (h : s.session n = some x) :
    (s.putReason n g due).session n = some { x with
      grace := match x.grace with
        | none => if due then some (Grace.start g s.plan.graceSeconds) else none
        | some c => some (c.put g due) } := by
  obtain ⟨slot, od, om, sec, units, ovr, ch, grace, bw, iw, fl⟩ := x
  cases due
  · cases grace <;> simp [State.putReason, State.dropReason, h]
  · cases grace with
    | none => simp [State.putReason, State.addReason, h]
    | some c =>
      obtain ⟨nb, bb, left⟩ := c
      cases g <;> cases nb <;> cases bb <;>
        simp [State.putReason, State.addReason, h, Grace.has, Grace.put]

/-- What an ALTER with CLASS makes of a session's grace (R94, log 29): the reasons due, with the seconds
it had or the plan's. -/
theorem State.session_alignGrace (s : State) {n : LineNo} {x : Session} (r : Staged) (a : Account)
    (h : s.session n = some x) (hc : r.flagClass = true) :
    (s.alignGrace n r a).session n = some { x with
      grace := graceJudged s.plan.graceSeconds x.grace a.budgetGone (s.bandBars a) } := by
  have hf := s.frame_putReason n .noBudget a.budgetGone
  have hp : (s.putReason n .noBudget a.budgetGone).plan = s.plan := hf .plan (by decide)
  have hb : (s.putReason n .noBudget a.budgetGone).bandBars a = s.bandBars a := by
    have h1 := hf .band (by decide)
    have h2 := hf .tables (by decide)
    simp only [Block.same] at h1 h2
    simp only [State.bandBars, State.mayHold, State.permit, h1, h2.2.2.2]
  have h2 := State.session_putReason _ .bandBarred (s.bandBars a)
    (s.session_putReason .noBudget a.budgetGone h)
  simp only [State.alignGrace, hc, if_true, State.endEmptyGrace, State.session_updSession_same, hb, h2,
    hp, Option.map_some]
  obtain ⟨slot, od, om, sec, units, ovr, ch, grace, bw, iw, fl⟩ := x
  generalize a.budgetGone = gone
  generalize s.bandBars a = barred
  rcases grace with _ | ⟨nb, bb, left⟩ <;> cases gone <;> cases barred <;>
    simp [graceJudged, Grace.start, Grace.put, Grace.noReason, Option.filter]

theorem State.frame_applyCommit (s : State) (r : Staged) :
    SameBut [.slots, .sessions, .queues] s (s.applyCommit r) := by
  simp only [State.applyCommit]
  split
  · exact SameBut.refl _ _
  · exact (s.frame_setSlot _ _).mono (by decide)
  · exact ((s.frame_updSlot _ _).mono (by decide)).step (State.frame_alignGraces _ _ _)
  · exact (s.frame_setSlot _ _).mono (by decide)

theorem State.frame_commitCompleted (s : State) :
    SameBut [.slots, .sessions, .queues, .requests, .staging, .contexts] s s.commitCompleted := by
  simp only [State.commitCompleted]
  split
  · refine SameBut.step (SameBut.step (SameBut.step (SameBut.ite ?_ ?_)
      (State.frame_setStaging _ _)) (State.frame_give _ _)) (State.frame_startService _)
    · exact ((s.frame_inService none).mono (by decide)).step (State.frame_applyCommit _ _)
    · exact (s.frame_inService none).mono (by decide)
  · exact SameBut.refl _ _
  · exact SameBut.refl _ _

/-! ## The Meter Unit -/

/-- The blocks a charge can change. -/
abbrev chargeBlocks : List Block := [.slots, .sessions, .queues]

theorem State.frame_judgeThreshold (s : State) (i : SlotNo) :
    SameBut chargeBlocks s (s.judgeThreshold i) := by
  simp only [State.judgeThreshold]
  split
  · exact SameBut.refl _ _
  · refine SameBut.ite ?_ (SameBut.refl _ _)
    refine State.forSessions_induction (P := SameBut chargeBlocks s)
      ((s.frame_updSlot _ _).mono (by decide)) ?_
    intro n x t h _
    exact SameBut.ite ((h.step (t.frame_give _)).step (State.frame_updSession _ _ _)) h

theorem State.frame_judgeExhaustion (s : State) (i : SlotNo) :
    SameBut [.sessions, .queues] s (s.judgeExhaustion i) := by
  simp only [State.judgeExhaustion]
  split
  · exact SameBut.refl _ _
  · refine SameBut.ite ?_ (SameBut.refl _ _)
    refine State.forSessions_induction (P := SameBut [.sessions, .queues] s) (SameBut.refl _ s) ?_
    intro n x t h _
    exact SameBut.ite (h.step (t.frame_addReason _ _)) h

theorem State.frame_chargeUnit (s : State) (n : LineNo) (i : SlotNo) :
    SameBut chargeBlocks s (s.chargeUnit n i) := by
  simp only [State.chargeUnit]
  split
  · exact SameBut.refl _ _
  · refine SameBut.ite ?_ ((s.frame_updSession _ _).mono (by decide))
    exact ((((s.frame_setSlot _ _).mono (by decide)).step (State.frame_updSession _ _ _)).step
      (State.frame_judgeThreshold _ _)).step (State.frame_judgeExhaustion _ _)

theorem State.frame_countCharge (s : State) (n : LineNo) (x : Session) (rate : Nat) :
    SameBut chargeBlocks s (s.countCharge n x rate) :=
  SameBut.ite
    (((s.frame_updSession _ _).mono (by decide)).step (State.frame_chargeUnit _ _ _))
    ((s.frame_updSession _ _).mono (by decide))

theorem State.frame_runGrace (s : State) (n : LineNo) : SameBut closeBlocks s (s.runGrace n) :=
  ((s.frame_updSession n _).mono (by decide)).step (State.frame_graceExpired _ n)

theorem State.frame_visitSecond (s : State) (running : Bool) (n : LineNo) (x : Session) :
    SameBut closeBlocks s (s.visitSecond running n x) := by
  simp only [State.visitSecond]
  have h := (s.frame_updSession n fun x =>
    { x with seconds := countUp x.seconds Config.maxSeconds }).mono (bs := closeBlocks) (by decide)
  split
  · exact h
  · exact h
  · refine SameBut.ite h (SameBut.ite ?_ ?_)
    · exact (h.step (State.frame_countCharge _ _ _ _)).step (State.frame_runGrace _ _)
    · exact h.step (State.frame_countCharge _ _ _ _)

theorem State.frame_secondTicked (s : State) :
    SameBut [.lines, .slots, .sessions, .posting, .queues, .timebase] s s.secondTicked := by
  refine SameBut.ite ?_ (SameBut.refl _ _)
  refine State.forSessions_induction
    (P := SameBut [.lines, .slots, .sessions, .posting, .queues, .timebase] s) ?_ ?_
  · intro b hb
    cases b <;> first | exact absurd (by decide) hb | (simp [Block.same, Meter.countSecondTick] <;> split <;> simp)
  · intro n x t h _
    exact h.step (t.frame_visitSecond _ _ _)

theorem State.frame_reevaluateBand (s : State) :
    SameBut [.band, .sessions, .queues] s s.reevaluateBand := by
  refine SameBut.ite (SameBut.refl _ _) ?_
  refine State.forSessions_induction (P := SameBut [.band, .sessions, .queues] s) ?_ ?_
  · intro b hb; cases b <;> first | exact absurd (by decide) hb | simp [Block.same]
  · intro n x t h _
    exact h.step (t.frame_judgeBand _ _)

theorem State.frame_idleCheck (s : State) (n : LineNo) (x : Session) :
    SameBut closeBlocks s (s.idleCheck n x) := by
  simp only [State.idleCheck]
  split
  · exact SameBut.refl _ _
  · exact SameBut.refl _ _
  · have h := (s.frame_updLine n fun r =>
      { r with idle := r.idleAfter, activity := false }).mono (bs := closeBlocks) (by decide)
    exact (SameBut.ite ((h.step (State.frame_give _ _)).step (State.frame_updSession _ _ _)) h).step
      (State.frame_idleExpired _ _)

theorem State.frame_tickLocks (s : State) : SameBut [.slots] s s.tickLocks := by
  intro b hb
  cases b <;> first | exact absurd (by decide) hb | simp [Block.same, State.tickLocks]

theorem State.frame_minuteTicked (s : State) :
    SameBut [.lines, .slots, .sessions, .posting, .queues, .timebase, .clock, .band] s
      s.minuteTicked := by
  refine SameBut.ite ?_ (SameBut.refl _ _)
  refine SameBut.step (State.forSessions_induction
    (P := SameBut [.lines, .slots, .sessions, .posting, .queues, .timebase, .clock, .band] s)
    ?_ ?_) (State.frame_tickLocks _)
  · refine SameBut.step ?_ (State.frame_reevaluateBand _)
    intro b hb
    cases b <;> first | exact absurd (by decide) hb | (simp [Block.same, Meter.advanceClock] <;> split <;> simp)
  · intro n x t h _
    exact h.step (t.frame_idleCheck _ _)

theorem State.frame_shortTicked (s : State) :
    SameBut [.lines, .contexts, .timebase] s s.shortTicked := by
  refine SameBut.ite ?_ (SameBut.refl _ _)
  intro b hb
  cases b <;> first | exact absurd (by decide) hb | 
    (simp [Block.same, Meter.countShortTick] <;> split <;> simp)

/-! ## The Line Monitor and the Sign-On Engine -/

theorem State.frame_testClearing (s : State) (n : LineNo) :
    SameBut [.lines] s (s.testClearing n) := s.frame_updLine n _

theorem State.frame_glitch (s : State) (n : LineNo) :
    SameBut [.lines, .sessions] s (s.glitch n) :=
  SameBut.ite
    (((s.frame_updLine n _).mono (by decide)).step (State.frame_updSession _ n _))
    ((s.frame_updLine n _).mono (by decide))

theorem State.frame_unsolicited (s : State) (n : LineNo) :
    SameBut [.lines, .answerQueue, .queues] s (s.unsolicited n) :=
  ((((s.frame_leaveQueue n).mono (by decide)).step (State.frame_hangUp _ n _)).step
    (State.frame_enterClearing _ n)).step (State.frame_give _ _)

theorem State.frame_answered (s : State) (n : LineNo) :
    SameBut [.lines, .contexts, .queues] s (s.answered n) := by
  simp only [State.answered]
  refine SameBut.step (SameBut.step (SameBut.step ?_ (State.frame_withdrawAnswer _ n))
    (State.frame_updLine _ n _)) (State.frame_give _ _)
  split
  · exact (s.frame_updCtx _ _).mono (by decide)
  · exact SameBut.refl _ _

/-- The blocks the carrier and ring rules can change. -/
abbrev statusBlocks : List Block := [.lines, .answerQueue, .contexts, .queues, .sessions]

theorem State.frame_setSpeed (s : State) (n : LineNo) (w : Word) :
    SameBut [.lines] s (s.setSpeed n w) := s.frame_updLine n _

theorem State.frame_carrierRule (s : State) (n : LineNo) (w : Word) :
    SameBut statusBlocks s (s.carrierRule n w) := by
  have h := (s.frame_setSpeed n w).mono (bs := statusBlocks) (by decide)
  simp only [State.carrierRule]
  split
  · exact SameBut.ite (h.step (State.frame_unsolicited _ n)) (SameBut.refl _ _)
  · exact SameBut.ite (h.step (State.frame_unsolicited _ n)) (SameBut.refl _ _)
  · exact SameBut.ite (h.step (State.frame_answered _ n)) (SameBut.refl _ _)
  all_goals first
    | exact SameBut.refl _ _
    | (split
       · exact SameBut.ite ((s.frame_glitch n).mono (by decide)) (SameBut.refl _ _)
       · exact SameBut.ite ((s.frame_updLine n _).mono (by decide))
           (SameBut.ite h (SameBut.refl _ _)))

theorem State.frame_ringArrival (s : State) (n : LineNo) :
    SameBut grantBlocks s (s.ringArrival n) := by
  simp only [State.ringArrival]
  refine SameBut.step (SameBut.step ?_ (State.frame_updLine _ n _)) (State.frame_evaluateGrants _)
  intro b hb; cases b <;> first | exact absurd (by decide) hb | simp [Block.same]

theorem State.frame_ringRule (s : State) (n : LineNo) (w : Word) :
    SameBut grantBlocks s (s.ringRule n w) := by
  refine SameBut.ite ?_ (SameBut.refl _ _)
  split
  · exact SameBut.ite (s.frame_ringArrival n) (SameBut.refl _ _)
  · exact (s.frame_updLine n _).mono (by decide)
  all_goals exact SameBut.refl _ _

theorem State.frame_setLastSeen (s : State) (n : LineNo) (w : Word) :
    SameBut [.lines] s (s.setLastSeen n w) := s.frame_updLine n _

theorem State.frame_statusWritten (s : State) (n : LineNo) (w : Word) :
    SameBut [.mem, .lines, .answerQueue, .contexts, .queues, .sessions] s (s.statusWritten n w) := by
  have h := (s.frame_writeArea (statusOffset n) w).mono
    (bs := [.mem, .lines, .answerQueue, .contexts, .queues, .sessions]) (by decide)
  simp only [State.statusWritten]
  split
  · exact h
  · exact h.step (State.frame_updLine _ n _)
  all_goals
    refine SameBut.step ?_ (State.frame_testClearing _ n)
    refine SameBut.step ?_ (State.frame_setLastSeen _ n w)
    exact (h.step (State.frame_carrierRule _ n w)).step (State.frame_ringRule _ n w)

/-- The blocks the end of a call, by a dialogue clear or a session close, can change. -/
abbrev endBlocks : List Block :=
  [.lines, .answerQueue, .contexts, .queues, .requests, .slots, .sessions, .posting]

theorem State.frame_doubtExpired (s : State) (n : LineNo) :
    SameBut endBlocks s (s.doubtExpired n) := by
  have h := fun f => (s.frame_updLine n f).mono (bs := endBlocks) (by decide)
  refine SameBut.ite (SameBut.ite ?_ (SameBut.ite ?_ (h _))) (SameBut.refl _ _)
  · exact (h _).step (State.frame_clearDialogue _ _ _ _)
  · exact (h _).step (State.frame_closeSession _ _ _ _)

theorem State.frame_readCommand (s : State) (n : LineNo) :
    SameBut [.lines] s (s.readCommand n).2 := by
  simp only [State.readCommand]
  split
  · exact SameBut.refl _ _
  · split
    · exact s.frame_updLine n _
    · exact SameBut.refl _ _

theorem State.frame_acknowledge (s : State) (n : LineNo) (w : Word) :
    SameBut [.mem, .lines] s (s.acknowledge n w) := by
  simp only [State.acknowledge]
  split
  · exact ((s.frame_updLine n _).mono (by decide)).step (State.frame_testClearing _ n)
  · exact (((s.frame_writeArea _ w).mono (by decide)).step (State.frame_updLine _ n _)).step
      (State.frame_testClearing _ n)

theorem State.frame_processorHangUp (s : State) (n : LineNo) :
    SameBut endBlocks s (s.processorHangUp n) :=
  SameBut.ite ((s.frame_closeSession _ _ _).mono (by decide))
    (SameBut.ite ((s.frame_clearDialogue _ _ _).mono (by decide)) (SameBut.refl _ _))

theorem State.frame_processorCommand (s : State) (n : LineNo) (w : Word) :
    SameBut (.mem :: endBlocks) s (s.processorCommand n w) := by
  have h := (s.frame_writeArea (commandOffset n) w).mono (bs := .mem :: endBlocks) (by decide)
  exact SameBut.ite (h.step (State.frame_processorHangUp _ n)) h

theorem State.frame_modeLoaded (s : State) (n : LineNo) (m : LineMode) :
    SameBut endBlocks s (s.modeLoaded n m) := by
  refine SameBut.ite (SameBut.refl _ _) ?_
  have h := fun f => (s.frame_updLine n f).mono (bs := endBlocks) (by decide)
  dsimp only
  split
  case h_4 => exact ((h _).step (State.frame_leaveQueue _ n)).step (State.frame_updLine _ n _)
  case h_9 => exact (h _).step (State.frame_closeSession _ _ _ _)
  all_goals first
    | exact (h _).step (State.frame_updLine _ n _)
    | exact (h _).step (State.frame_clearDialogue _ _ _ _)

theorem State.frame_hangRequested (s : State) (n : LineNo) (m : Manner) :
    SameBut endBlocks s (s.hangRequested n m) := by
  simp only [State.hangRequested]
  split
  · exact (s.frame_closeSession _ _ _).mono (by decide)
  all_goals first
    | exact SameBut.refl _ _
    | exact (s.frame_clearDialogue _ _ _).mono (by decide)
    | exact ((s.frame_leaveQueue n).mono (by decide)).step (State.frame_updLine _ n _)
    | exact SameBut.ite ((s.frame_hangUp n _).mono (by decide)) (SameBut.refl _ _)

theorem State.frame_writeSetting (s : State) (n : LineNo) (w : Word) :
    SameBut (.latch :: endBlocks) s (s.writeSetting n w) := by
  refine SameBut.ite ((s.frame_refuse _ _).mono (by decide)) ?_
  have h : SameBut (.latch :: endBlocks) s (s.settingModeLoad n w) := by
    simp only [State.settingModeLoad]
    split
    · exact (s.frame_modeLoaded _ _).mono (by decide)
    · exact SameBut.refl _ _
  simp only [State.settingHangRequest]
  split
  · exact h.step (State.frame_hangRequested _ _ _)
  · exact h
  · exact h

theorem State.frame_ringGoneExpired (s : State) (n : LineNo) :
    SameBut [.lines, .answerQueue] s (s.ringGoneExpired n) :=
  SameBut.ite ((s.frame_leaveQueue n).step (State.frame_updLine _ n _)) (SameBut.refl _ _)

theorem State.frame_answerExpired (s : State) (n : LineNo) :
    SameBut clearBlocks s (s.answerExpired n) :=
  SameBut.ite (s.frame_clearDialogue _ _ _) (SameBut.refl _ _)

theorem State.frame_signOnExpired (s : State) (k : CtxNo) :
    SameBut clearBlocks s (s.signOnExpired k) := by
  simp only [State.signOnExpired]
  split
  · exact SameBut.ite (s.frame_clearDialogue _ _ _) (SameBut.refl _ _)
  · exact SameBut.refl _ _

theorem State.frame_endName (s : State) (k : CtxNo) (n : LineNo) :
    SameBut clearBlocks s (s.endName k n) := by
  refine SameBut.ite (SameBut.refl _ _) (SameBut.ite (s.frame_rejectAttempt _ _ _) ?_)
  exact (((s.frame_updCtx k _).mono (by decide)).step (State.frame_updLine _ n _)).step
    (State.frame_give _ _)

theorem State.frame_endPassword (s : State) (k : CtxNo) (n : LineNo) :
    SameBut clearBlocks s (s.endPassword k n) := by
  refine SameBut.ite (SameBut.refl _ _) ?_
  exact (((s.frame_updCtx k _).mono (by decide)).step (State.frame_updLine _ n _)).step
    (State.frame_submit _ _)

theorem State.frame_restartDialogue (s : State) (k : CtxNo) (n : LineNo) :
    SameBut clearBlocks s (s.restartDialogue k n) :=
  (((s.frame_updCtx k _).mono (by decide)).step (State.frame_updLine _ n _)).step
    (State.frame_give _ _)

theorem State.frame_countNoise (s : State) (k : CtxNo) (n : LineNo) :
    SameBut clearBlocks s (s.countNoise k n) := by
  have h := (s.frame_updCtx k fun c => { c with noise := c.noise + 1 }).mono (bs := clearBlocks)
    (by decide)
  exact SameBut.ite (h.step (State.frame_clearDialogue _ _ _ _)) h

theorem State.frame_dialogueEntry (s : State) (k : CtxNo) (n : LineNo) (w : Word) :
    SameBut clearBlocks s (s.dialogueEntry k n w) := by
  simp only [State.dialogueEntry]
  split
  · exact SameBut.ite (s.frame_restartDialogue k n) (SameBut.ite (s.frame_countNoise k n)
      (SameBut.ite (s.frame_endName k n) ((s.frame_updCtx k _).mono (by decide))))
  · exact SameBut.ite (s.frame_restartDialogue k n) (SameBut.ite (s.frame_countNoise k n)
      (SameBut.ite (s.frame_endPassword k n) ((s.frame_updCtx k _).mono (by decide))))
  all_goals exact SameBut.refl _ _

theorem State.frame_receive (s : State) (n : LineNo) (i : Fin 32) (w : Word) :
    SameBut [.mem, .lines, .answerQueue, .contexts, .queues, .requests, .sessions] s
      (s.receive n i w) := by
  have h := (s.frame_writeArea (receiveOffset n i) (s.entryInMemory n w)).mono
    (bs := [.mem, .lines, .answerQueue, .contexts, .queues, .requests, .sessions]) (by decide)
  have h' := h.step (State.frame_updLine _ n fun r =>
    { r with sticky := r.sticky ||| (entryMarks w).setWidth 5 })
  simp only [State.receive]
  split
  · exact h
  case h_6 =>
    exact (h'.step (State.frame_updLine _ n _)).step (State.frame_updSession _ n _)
  all_goals first
    | exact h'
    | (split
       · exact h'.step (State.frame_dialogueEntry _ _ n w)
       · exact h')

end Sys2Proof.Machine
end

