-- ==== Sys2Proof/Laws/Rows.lean ====
section
/-!
SUPPORT. The frames of what Laws/Ops.lean leaves: the meter's cells, the census and status reads, the
attention controller, the plan, postings, the bus passage and the resets; and the one lemma that every
command answers a next state.
-/

namespace Sys2Proof.Machine

set_option Elab.async false

/-! ## The event every command is -/

/-- A running part takes the effect and then brings ATTN into line (R146). -/
theorem event_running (f : State → State) {s : State} (h : s.pins.porn = true) :
    event f s = .next (f s).refreshAttn := by
  simp only [event, h, if_true]

/-- A part held in reset takes no event (R177). -/
theorem event_held (f : State → State) {s : State} (h : s.pins.porn = false) :
    event f s = .next s := by
  simp only [event, h, Bool.false_eq_true, if_false]

/-- A property that an effect keeps and that ATTN's level does not touch is kept by its event. -/
theorem event_keeps {P : State → Prop} {f : State → State} {s t : State} (h : event f s = .next t)
    (hs : P s) (keep : P (f s)) (attn : ∀ u, P u → P u.refreshAttn) : P t := by
  simp only [event, Host.Outcome.next.injEq] at h
  subst h
  split
  · exact attn _ keep
  · exact hs

/-! ## The meter's cells -/

theorem State.frame_writeClockMinute (s : State) (w : Word) :
    SameBut [.clock, .band, .sessions, .queues, .latch] s (s.writeClockMinute w) := by
  refine SameBut.ite (SameBut.step ?_ (State.frame_reevaluateBand _))
    ((s.frame_refuse _ _).mono (by decide))
  intro b hb; cases b <;> first | exact absurd (by decide) hb | simp [Block.same]

theorem State.frame_writeClockDay (s : State) (w : Word) :
    SameBut [.clock, .band, .sessions, .queues] s (s.writeClockDay w) := by
  refine SameBut.step ?_ (State.frame_reevaluateBand _)
  intro b hb; cases b <;> first | exact absurd (by decide) hb | simp [Block.same]

theorem State.frame_writeBandStart (s : State) (b : BandNo) (w : Word) :
    SameBut [.tables, .latch, .queues] s (s.writeBandStart b w) := by
  refine SameBut.ite ?_ ((s.frame_refuse _ _).mono (by decide))
  intro b hb; cases b <;> first | exact absurd (by decide) hb | simp [Block.same]

theorem State.frame_writeWeekend (s : State) (w : Word) :
    SameBut [.tables] s (s.writeWeekend w) := by
  intro b hb
  cases b <;> first | exact absurd (by decide) hb | simp [Block.same, State.writeWeekend]

theorem State.frame_writeTariff (s : State) (b : BandNo) (v : SpeedNo) (w : Word) :
    SameBut [.tables, .latch, .queues] s (s.writeTariff b v w) := by
  refine SameBut.ite ?_ ((s.frame_refuse _ _).mono (by decide))
  intro b hb; cases b <;> first | exact absurd (by decide) hb | simp [Block.same]

theorem State.frame_writePermit (s : State) (c : AccountClass) (w : Word) :
    SameBut [.tables, .sessions, .queues] s (s.writePermit c w) := by
  refine State.forSessions_induction (P := SameBut [.tables, .sessions, .queues] s) ?_ ?_
  · intro b hb; cases b <;> first | exact absurd (by decide) hb | simp [Block.same]
  · intro n x t h _
    exact SameBut.ite (h.step (t.frame_judgeBand _ _)) h

/-! ## The reads that change state -/

theorem State.frame_readCensus (s : State) : SameBut [.census] s s.readCensus.2 := by
  simp only [State.readCensus]
  split
  · split
    · split
      · exact s.frame_setCensus _
      · exact SameBut.refl _ _
    · exact s.frame_setCensus _
  · exact SameBut.refl _ _

theorem State.frame_startCensus (s : State) (w : Word) : SameBut [.census] s (s.startCensus w) :=
  s.frame_setCensus _

theorem State.frame_readStatus0 (s : State) (n : LineNo) :
    SameBut [.lines] s (s.readStatus0 n).2 := s.frame_updLine n _

theorem State.frame_readLatch (s : State) : SameBut [.latch] s s.readLatch.2 := by
  intro b hb; cases b <;> first | exact absurd (by decide) hb | simp [Block.same, State.readLatch]

theorem State.frame_readAttention (s : State) :
    SameBut [.queues, .inService, .priority] s s.readAttention.2 := s.frame_setAttention _

/-! ## Attention, the plan and the transmit cells -/

theorem State.frame_writeAttention (s : State) (w : Word) :
    SameBut [.queues, .inService, .priority, .latch] s (s.writeAttention w) := by
  simp only [State.writeAttention]
  split <;> first
    | exact (s.frame_setAttention _).mono (by decide)
    | exact (s.frame_refuse _ _).mono (by decide)

theorem State.frame_writePlanStart (s : State) (w : Word) :
    SameBut [.lines, .answerQueue, .fill, .ring, .queues, .inService, .priority, .plan] s
      (s.writePlanStart w) := by
  refine SameBut.ite ?_ ((s.frame_give _).mono (by decide))
  intro b hb; cases b <;> first | exact absurd (by decide) hb | simp [Block.same]

theorem State.frame_applyPlanWord (s : State) (k : Nat) (w : Word) :
    SameBut [.timebase, .ring, .plan, .lines, .answerQueue, .contexts, .queues] s
      (s.applyPlanWord k w) := by
  simp only [State.applyPlanWord]
  split
  · intro b hb; cases b <;> first | exact absurd (by decide) hb | simp [Block.same]
  · refine SameBut.step ?_ (State.frame_evaluateGrants _)
    intro b hb; cases b <;> first | exact absurd (by decide) hb | simp [Block.same]
  · exact (s.frame_setPlan _).mono (by decide)

theorem State.frame_writePlanWord (s : State) (w : Word) :
    SameBut [.timebase, .ring, .plan, .lines, .answerQueue, .contexts, .queues, .latch] s
      (s.writePlanWord w) := by
  have h := fun k => (s.frame_applyPlanWord k w).mono
    (bs := [.timebase, .ring, .plan, .lines, .answerQueue, .contexts, .queues, .latch]) (by decide)
  simp only [State.writePlanWord]
  split
  · refine SameBut.ite (SameBut.ite ?_ ?_) ?_
    · exact (((h _).step (State.frame_setPlan _ _)).step (State.frame_give _ _)).step
        (State.frame_evaluateGrants _)
    · exact (h _).step (State.frame_setPlan _ _)
    · exact ((s.frame_setPlan _).mono (by decide)).step (State.frame_give _ _)
  · exact (s.frame_refuse _ _).mono (by decide)
  · exact (s.frame_refuse _ _).mono (by decide)

theorem State.frame_writePut (s : State) (n : LineNo) (w : Word) :
    SameBut [.mem, .lines] s (s.writePut n w) :=
  ((s.frame_writeArea _ w).mono (by decide)).step (State.frame_updLine _ n _)

theorem State.frame_writeTake (s : State) (n : LineNo) (w : Word) :
    SameBut [.mem, .lines] s (s.writeTake n w) :=
  ((s.frame_writeArea _ w).mono (by decide)).step (State.frame_updLine _ n _)

/-! ## The journal -/

theorem State.frame_sweepMarked (s : State) (w : Word) :
    SameBut [.mem, .window] s (s.sweepMarked w) := by
  have h := (s.frame_writeArea sweepOffset w).mono (bs := [.mem, .window]) (by decide)
  exact SameBut.ite (h.step (State.frame_setWindow _ _)) (h.step (State.frame_setWindow _ _))

theorem State.frame_windowTimedOut (s : State) : SameBut [.window] s s.windowTimedOut := by
  simp only [State.windowTimedOut]
  split
  · exact SameBut.ite (s.frame_setWindow _) (SameBut.refl _ _)
  · exact SameBut.refl _ _

theorem State.frame_microsecond (s : State) : SameBut [.window] s s.microsecond := by
  simp only [State.microsecond]
  split
  · exact SameBut.ite (s.frame_setWindow _) (SameBut.refl _ _)
  · exact SameBut.refl _ _

theorem State.frame_startPosting (s : State) : SameBut [.memorySide] s s.startPosting :=
  SameBut.ite (s.frame_setOwner _) (SameBut.refl _ _)

theorem State.frame_writeRecord (s : State) (p : Nat) (words : List Word) (k : Nat) :
    SameBut [.mem] s (s.writeRecord p words k) := by
  simp only [State.writeRecord]
  generalize words.zipIdx.take k = ws
  have go : ∀ (ws : List (Word × Nat)) (t : State), SameBut [.mem] s t →
      SameBut [.mem] s (ws.foldl (fun s wi => s.writeArea (journalOffset p wi.2) wi.1) t) := by
    intro ws
    induction ws with
    | nil => intro t h; exact h
    | cons wi ws ih => intro t h; exact ih _ (h.step (t.frame_writeArea _ _))
  exact go ws s (SameBut.refl _ s)

/-- The blocks steps 1 to 5 of a posting's completion can change. -/
abbrev postedBlocks : List Block := [.mem, .posting, .ring, .lines, .answerQueue, .contexts, .queues]

theorem State.frame_journalQueue (s : State) (q : List JournalRecord) :
    SameBut [.posting] s { s with journal := { s.journal with queue := q } } := by
  intro b hb; cases b <;> first | exact absurd (by decide) hb | simp [Block.same]

theorem State.frame_journalHead (s : State) (h v : Nat) :
    SameBut [.ring] s { s with journal := { s.journal with head := h, visible := v } } := by
  intro b hb; cases b <;> first | exact absurd (by decide) hb | simp [Block.same]

theorem State.frame_recordPosted (s : State) : SameBut postedBlocks s s.recordPosted := by
  simp only [State.recordPosted]
  split
  · exact SameBut.refl _ _
  · rename_i r rest _
    have h1 := (s.frame_writeRecord s.journal.head r.words.toList 16).mono (bs := postedBlocks)
      (by decide)
    have h2 := h1.step (State.frame_journalQueue _ rest)
    have h3 := h2.step (State.frame_updLine _ r.line fun r => { r with recordPending := false })
    exact ((h3.step (State.frame_journalHead _ _ _)).step (State.frame_give _ _)).step
      (State.frame_evaluateGrants _)

theorem State.frame_windowAfterPosting (s : State) :
    SameBut [.window] s s.windowAfterPosting := by
  simp only [State.windowAfterPosting]
  split
  · exact SameBut.refl _ _
  · exact SameBut.ite (s.frame_setWindow _) (s.frame_setWindow _)

theorem State.frame_writeTail (s : State) (w : Word) :
    SameBut [.ring, .lines, .answerQueue, .contexts, .queues, .latch] s (s.writeTail w) := by
  refine SameBut.ite (SameBut.ite (SameBut.refl _ _) (SameBut.step ?_ (State.frame_evaluateGrants _)))
    ((s.frame_refuse _ _).mono (by decide))
  intro b hb; cases b <;> first | exact absurd (by decide) hb | simp [Block.same]

/-! ## The bus passage and bus reset -/

theorem State.frame_writeRefused (s : State) (m : Master) (o : Offset) :
    SameBut [.latch, .queues] s (s.writeRefused m o) :=
  SameBut.ite (s.frame_refuse m o) (SameBut.refl _ _)

theorem State.frame_closeWindowAt (s : State) (c : Cycle) :
    SameBut [.window] s (s.closeWindowAt c) := s.frame_setWindow _

theorem State.frame_present (s : State) (c : Cycle) : SameBut [.porn, .brdy] s (s.present c) := by
  refine SameBut.ite (SameBut.refl _ _) ?_
  intro b hb; cases b <;> first | exact absurd (by decide) hb | simp [Block.same]

theorem State.frame_busResetTaken (s : State) :
    SameBut [.queues, .inService, .priority, .latch, .memorySide, .requests, .census, .staging] s
      s.busResetTaken := by
  intro b hb
  cases b <;> first
    | exact absurd (by decide) hb
    | simp [Block.same, State.busResetTaken, Directory.busReset, BusUnit.busReset]

/-! ## Every command answers a next state -/

theorem event_answers (f : State → State) (s : State) : ∃ t, event f s = .next t := ⟨_, rfl⟩

/-- No command stops the part: the spec names no event that does. -/
theorem exec_answers (i : Instr) (s : State) : ∃ t, exec i s = .next t := by
  cases i
  case masterCycleArrival c =>
    show ∃ t, execMasterCycleArrival c s = .next t
    simp only [execMasterCycleArrival]
    split
    · exact event_answers _ s
    · exact ⟨_, rfl⟩
  all_goals exact ⟨_, rfl⟩

/-- No step stops the part. -/
theorem step_answers (s : State) : ∃ t, step s = .next t := by
  simp only [step]
  split
  · exact exec_answers _ _
  · exact ⟨_, rfl⟩

end Sys2Proof.Machine
end

