-- ==== Sys2Proof/WellFormed.lean ====
section
/-!
DEFINITION. Which commands are well formed: the operand types rule out every number out of range, and
the checks here rule out the words that another row of the table spells.
-/

namespace Sys2Proof

/-- A master cycle that is a read carries no write data (R156). -/
def Cycle.wellFormed (c : Cycle) : Bool := c.write || c.data == 0#16

/-- The checks on a command's operands.

- A MODE_LOAD's setting word has its load flag set (R18, R19).
- A HANG_REQUEST's setting word has its load flag clear and a HANG field other than none (R18, R20).
- A WRITE_REFUSED names a cell with no take meaning for its master (R157, R161).
- A read presented by MASTER_CYCLE_ARRIVAL carries no data (R156). -/
def Instr.wellFormed (i : Instr) : Bool :=
  match i with
  | .modeLoad _ w => w.getLsbD 2
  | .hangRequest _ w => !w.getLsbD 2 && w.extractLsb' 4 2 != 0#2
  | .writeRefused m o => Machine.refusesWrite m (Machine.region o)
  | .masterCycleArrival c => c.wellFormed
  | .statusWrite _ _ | .receiveEntry _ _ _ | .commandWordRead _ | .acknowledge _ _
  | .processorHangUp _ | .transmitPutWrite _ _ | .transmitTakeWrite _ _ | .carrierDoubtExpiry _
  | .politeTimeExpiry _ | .clearingTimeExpiry _ | .sessionStatusRead _ | .ringGoneExpiry _
  | .answerTimerExpiry _ | .signOnTimeExpiry _ | .requestServiceStart | .lookupCompletion
  | .lockEnd _ | .censusStart _ | .censusRead | .stagingWrite _ _ | .commitWrite _
  | .commitCompletion | .shortTick | .secondTick | .graceExpiry _ | .minuteTick | .idleLimit _
  | .clockMinuteWrite _ | .clockDayWrite _ | .bandStartWrite _ _ | .weekendWrite _
  | .tariffWrite _ _ _ | .permitWrite _ _ | .sweepMarker _ | .postingStart | .postingCompletion
  | .windowTimeOut | .tailWrite _ | .poll | .nonSpecificDone | .specificDone _
  | .rotateOnNonSpecificDone | .rotateOnSpecificDone _ | .setLowest _ | .maskWrite _
  | .modeWrite _ | .masterCycleEnd | .latchRead | .planStart _ | .planWord _ | .powerOnReset
  | .powerOnResetRelease _ _ _ | .busReset => true

end Sys2Proof
end

