-- ==== Sys2Proof/Tests/Slice0.lean ====
section
/-!
SUPPORT. Tests: the well-formedness checks, values and short sequences the spec gives, and, for every
statement of Certificates/Slice0/Obligations.lean that has hypotheses, states and operands that meet them
(`witness_` theorems, clause by clause, at boundary values).
-/

namespace Sys2Proof.Tests

set_option Elab.async false

open Sys2Proof.Machine

/-! ## Well-formedness: an ill-formed term for each check -/

theorem test_modeLoad_needs_its_flag :
    (Instr.modeLoad 5 0x0001#16).wellFormed = false ∧ (Instr.modeLoad 5 0x0005#16).wellFormed = true := by
  decide

theorem test_hangRequest_needs_a_request :
    (Instr.hangRequest 5 0x0000#16).wellFormed = false
      ∧ (Instr.hangRequest 5 0x0024#16).wellFormed = false
      ∧ (Instr.hangRequest 5 0x0020#16).wellFormed = true := by
  decide

theorem test_writeRefused_needs_a_refusing_cell :
    (Instr.writeRefused .processor 0x0C0#15).wellFormed = false
      ∧ (Instr.writeRefused .scanner 0x0C0#15).wellFormed = true := by
  decide

theorem test_read_cycle_carries_no_data :
    (Instr.masterCycleArrival { master := .scanner, addr := 0, write := false, data := 1 }).wellFormed
        = false
      ∧ (Instr.masterCycleArrival
          { master := .scanner, addr := 0, write := false, data := 0 }).wellFormed = true := by
  decide

/-! ## Values the spec gives -/

/-- R67: "The nine bytes of the characters "123456789" give 906Eh", and no bytes give 0000h. -/
theorem test_checkWord_of_123456789 :
    checkWord [0x31, 0x32, 0x33, 0x34, 0x35, 0x36, 0x37, 0x38, 0x39] = 0x906E#16
      ∧ checkWord [] = 0#16 := by
  decide +kernel

/-- R144: "With L at 2 the order from highest is 3, 4, 5, 6, 7, 0, 1, 2." -/
theorem test_order_with_lowest_two :
    ({ Attention.reset with lowest := 2 }).order = [3, 4, 5, 6, 7, 0, 1, 2] := by
  decide

/-- R105's schedule: minute 539 of a weekday gives band 3, 540 band 0, 1320 band 2; a weekend band 3. -/
theorem test_weekday_schedule :
    let m := { Meter.reset with bandStarts := ⟨#[540, 1020, 1320, 0], rfl⟩, weekend := 0x60#7 }
    ({ m with minute := 539 }).evaluateBand = 3 ∧ ({ m with minute := 540 }).evaluateBand = 0
      ∧ ({ m with minute := 1019 }).evaluateBand = 0 ∧ ({ m with minute := 1020 }).evaluateBand = 1
      ∧ ({ m with minute := 1439 }).evaluateBand = 2
      ∧ ({ m with minute := 600, weekday := 5 }).evaluateBand = 3 := by
  decide

/-- R4: speed codes 0 to 2 give their class and 3 to 7 give class 3. -/
theorem test_speed_codes :
    (List.range 8).map (fun i => statusSpeed (BitVec.ofNat 16 (16 * i))) = [0, 1, 2, 3, 3, 3, 3, 3] := by
  decide

/-- R157: the part cells stand where R172 puts them. -/
theorem test_regions :
    region 0x03F#15 = .commandWord 63 ∧ region 0x040#15 = .statusWord 0
      ∧ region 0x0C0#15 = .attention ∧ region 0x0D1#15 = .credit ∧ region 0x0D2#15 = .plain
      ∧ region 0x0EF#15 = .tariff 3 3 ∧ region 0x0F8#15 = .permit .operator
      ∧ region 0x3FF#15 = .sessionStatus 63 3 ∧ region 0x400#15 = .receiveRing 0 0
      ∧ region 0xBFF#15 = .receiveRing 63 31 ∧ region 0x207F#15 = .transmitTake 63
      ∧ region 0x3FFF#15 = .plain ∧ region 0x4000#15 = .journal ∧ region 0x7FFF#15 = .journal := by
  decide +kernel

/-! ## The states the tests use -/

/-- The state after a command; a stop keeps the state. -/
def run (i : Instr) (s : State) : State :=
  match exec i s with
  | .next t => t
  | .fault _ => s
  | .refused _ => s

/-- The reset state with line 5's record replaced. -/
def lineIs (r : LineRecord) : State := State.reset.setLine 5 r

/-- Line 5 in a state, WATCHED, with nothing else set. -/
def inState (x : LineState) : LineRecord := { LineRecord.reset with mode := .watched, state := x }

/-- Line 5 in a dialogue state on context 0, with the context's fields set by `f`. -/
def dialogue (x : LineState) (f : Context → Context) : State :=
  (lineIs { inState x with context := some 0, lastCarrier := true }).setCtx 0
    (f (Context.fresh (some 5)))

/-- An account named A with check word 0, one unit of budget left and one of two sessions open. -/
def account : Account :=
  { name := [0x41#8], number := 7, cls := .student, check := 0, budget := 1, basis := 3, units := 2,
    alarm := false, maxSessions := 2, openSessions := 1, failures := 0, lock := .none }

/-- A session of slot 0. -/
def session : Session :=
  { slot := 0, openDay := 0, openMinute := 0, seconds := 0, units := Vector.replicate 4 0, overrun := 0,
    charge := 0, grace := none, budgetWarned := false, idleWarned := false, faults := 0 }

/-- Line 5 SIGNED_ON on slot 0, its record and session set by `f` and `g`. -/
def signedOn (f : LineRecord → LineRecord) (g : Session → Session) : State :=
  ((lineIs (f { inState .signedOn with lastCarrier := true })).setSlot 0 (some account)).setSession 5
    (some (g session))

/-- The plan PLANNED with room for 64 records, and line 5 in a state. -/
def planned (x : LineState) : State :=
  { lineIs (inState x) with
    plan := { Plan.reset with state := .planned, answerTime := 5, ringGoneTime := 4, signOnLimit := 30 }
    journal := { Journal.reset with capacity := 64 } }

/-- A processor read of the part status cell. -/
def aRead : Cycle := { master := .processor, addr := 0x000C5#18, write := false, data := 0 }

/-- A scanner write outside the line area. -/
def aWrite : Cycle := { master := .scanner, addr := 0x08000#18, write := true, data := 3 }

/-- A record of line 5. -/
def aRecord : JournalRecord := { line := 5, words := Vector.replicate 16 1 }

/-! ## Commands in short -/

/-- R5, R25, R31: a ring on an IDLE line of a planned part is answered in the same event. -/
theorem test_statusWrite_ring_is_answered :
    let t := run (.statusWrite 5 0x0002#16) (planned .idle)
    (t.line 5).state = .answering ∧ (t.line 5).context = some 0 ∧ (t.ctx 0).holder = some 5
      ∧ (t.line 5).answer = some 500 ∧ t.credit = 63 := by
  decide +kernel

/-- R46, R47: a character typed in PASSWORD is stored as typed and reaches memory as the fill character. -/
theorem test_receiveEntry_is_masked :
    let t := run (.receiveEntry 5 0 0x0061#16) (dialogue .password id)
    (t.ctx 0).password = [0x61#8] ∧ t.readMem 0x004A0#18 = 0x0020#16 := by
  decide +kernel

/-- R11: a RUDE HANG_UP is delivered at the next read of the command word. -/
theorem test_commandWordRead_delivers :
    let t := run (.commandWordRead 5) (lineIs { inState .clearing with
      forced := some { kind := .hangUp, manner := .rude, politeLeft := none, awaiting := none } })
    t.pins.bd = 0x0002#16 ∧ ((t.line 5).forced.bind (·.awaiting)) = some .hangUp := by
  decide +kernel

/-- R82: the census returns slot 0 with its one open session, and then the end word. -/
theorem test_census_returns_the_slot :
    let s := run (.censusStart 0x0002#16) (signedOn id id)
    (run .censusRead s).pins.bd = 0x8800#16 ∧ (run .censusRead s).directory.census.cursor = 1 := by
  decide +kernel

/-- R67, R72: a lookup of the right name and check word is accepted, and a wrong one is BAD_PASSWORD. -/
theorem test_lookup_outcomes :
    let s := signedOn id id
    (s.lookupOutcome [0x41#8] 0 false).1 = .accept
      ∧ (s.lookupOutcome [0x41#8] 1 false).1 = .reject .badPassword
      ∧ (s.lookupOutcome [0x41#8] 0 true).1 = .reject .badPassword := by
  decide +kernel

/-- R147, R148: a poll returns the head entry of class 2 in its layout and places it in service; the
non-specific done ends it. -/
theorem test_poll_and_done :
    let t := run .poll (State.reset.give (.rejected 5 .noisy))
    t.pins.bd = 0xA14B#16 ∧ t.attention.served 2 = some (.rejected 5 .noisy)
      ∧ ((run .nonSpecificDone t).attention.served 2) = none := by
  decide +kernel

/-- R162: a refused scanner write is latched, shown by the latch read and cleared by it. -/
theorem test_latch_shows_the_refused_write :
    let t := run (.writeRefused .scanner 0x0C0#15) State.reset
    (run .latchRead t).pins.bd = 0x80C0#16 ∧ (run .latchRead t).bus.latch.valid = false
      ∧ (run .latchRead State.reset).pins.bd = 0#16 := by
  decide +kernel

/-- R167: words 2 to 11 in range take the plan to PLANNED. -/
theorem test_plan_words_complete :
    let ws : List Word := [0x9C40, 0x3D00, 10, 5, 0x0405, 30, 0x0012, 0x0301, 0x0281, 0xFFFF]
    let t := ws.foldl (fun s w => run (.planWord w) s) (run (.planStart 0x002A#16) State.reset)
    t.plan.state = .planned ∧ t.journal.capacity = 64 ∧ t.journal.lowMark = 61
      ∧ t.plan.lockThreshold = 2 ∧ t.plan.graceSeconds = 10 ∧ t.fill = 0x20#8 := by
  decide +kernel

/-- R157: a processor write to a command word passes for a line in OFF and is watched for one in IDLE. -/
theorem test_processor_command_write_action :
    let c : Cycle := { master := .processor, addr := 5, write := true, data := 2 }
    (State.reset.classify c).action = .pass
      ∧ ((lineIs (inState .idle)).classify c).action = .watch := by
  decide +kernel

/-- R164, log 14: after a bus reset the restarted master's new cycle waits for the part to complete the
old one, which answers no one, and BRDY then answers the new cycle at its own end (R177, log 21). -/
theorem test_restarted_master_makes_a_new_cycle :
    let s := run .busReset (run (.masterCycleArrival aRead) State.reset)
    let t := run (.masterCycleArrival aRead) s
    let u := run .masterCycleEnd t
    t.bus.restarted = true ∧ t.bus.waiting = [aRead]
      ∧ u.bus.waiting = [] ∧ u.bus.restarted = false ∧ u.pins.brdyProcessor = false
      ∧ (run .masterCycleEnd u).pins.brdyProcessor = true := by
  decide +kernel

/-- R177, log 21: the end of one master's cycle answers that master alone. -/
theorem test_brdy_answers_its_own_master :
    let s := run (.masterCycleArrival aWrite) (run (.masterCycleArrival aRead) State.reset)
    let t := run .masterCycleEnd s
    t.pins.brdyProcessor = true ∧ t.pins.brdyScanner = false
      ∧ (run .masterCycleEnd t).pins.brdyScanner = true := by
  decide +kernel

/-! ## Witnesses: the queue and the resets -/

theorem witness_StepRunsTheFrontCommand :
    ({ State.reset with pending := [Instr.poll] }).pending = .poll :: []
      ∧ (let s := State.reset.setWindow (some { left := 1, eligible := 1, ending := false })
         s.pending = [] ∧ s.pins.porn = true ∧ s.bus.owner ≠ .posting
           ∧ s.journal.window = some { left := 1, eligible := 1, ending := false })
      ∧ State.reset.poweredOn.pins.porn = false
      ∧ (State.reset.setOwner .posting).bus.owner = .posting ∧ State.reset.journal.window = none := by
  decide +kernel

theorem witness_PowerOnResetReturnsEveryBlock :
    State.reset.bus.owner ≠ .posting
      ∧ (let s := (State.reset.setOwner .posting).queueRecord aRecord
         s.bus.owner = .posting ∧ s.journal.queue = aRecord :: []) := by
  decide +kernel

theorem witness_PornHoldsThePartUntilItsRelease :
    (let s := State.reset.poweredOn
     s.pins.porn = false ∧ (∀ d ∈ s.pins.presented, d.master ≠ aRead.master)
       ∧ s.stillPresented true true = []
       ∧ (s.present aRead).pins.porn = false
       ∧ (∃ d ∈ (s.present aRead).pins.presented, d.master = aRead.master)
       ∧ (s.present aRead).stillPresented true false = [aRead]
       ∧ ((s.present aRead).present aWrite).stillPresented true true = [aRead, aWrite])
      ∧ State.reset.pins.porn = true := by
  decide +kernel

theorem witness_BusResetKeepsAllButFourBlocks :
    State.reset.pins.porn = true
      ∧ (State.reset.setOwner (.cycle aRead .overlay 9)).bus.owner = .cycle aRead .overlay 9
      ∧ State.reset.directory.inService = none
      ∧ ({ State.reset.directory with inService := some (.commit Staged.empty) }).inService
          = some (.commit Staged.empty) := by
  decide +kernel

/-! ## Witnesses: the bus passage and the journal -/

theorem witness_AnArrivingCycleIsTakenOrWaits :
    State.reset.pins.porn = true ∧ State.reset.busyWith .scanner = false
      ∧ State.reset.bus.owner = .free ∧ State.reset.bus.waiting = []
      ∧ (State.reset.setOwner .posting).busyWith .scanner = false
      ∧ (State.reset.setOwner .posting).bus.owner ≠ .free
      ∧ (State.reset.enqueueCycle aRead).busyWith .scanner = false
      ∧ (State.reset.enqueueCycle aRead).bus.waiting ≠ []
      ∧ (State.reset.enqueueCycle aRead).busyWith .processor = true := by
  decide +kernel

theorem witness_ACycleEndHandsTheMemorySideOn :
    let s := State.reset.setOwner (.cycle aRead .overlay 9)
    s.pins.porn = true ∧ s.bus.owner = .cycle aRead .overlay 9 ∧ s.bus.waiting = []
      ∧ s.bus.restarted = false ∧ s.busResetTaken.bus.restarted = true
      ∧ s.busResetTaken.bus.owner = .cycle aRead .overlay 9
      ∧ (s.enqueueCycle aWrite).bus.waiting = aWrite :: []
      ∧ s.journal.window = none
      ∧ (s.setWindow (some { left := 6, eligible := 1, ending := false })).journal.window
          = some { left := 6, eligible := 1, ending := false }
      ∧ (s.setWindow (some { left := 5, eligible := 1, ending := false })).journal.window
          = some { left := 5, eligible := 1, ending := false } := by
  decide +kernel

theorem witness_TheActionDecidesWhatReachesMemory :
    Memory.wf State.reset.mem = true ∧ State.reset.areaOffset aRead.addr = some 0x0C5#15
      ∧ State.reset.areaOffset 0x07FFF#18 = some 0x7FFF#15
      ∧ aRead.write = false ∧ aWrite.write = true ∧ State.reset.areaOffset aWrite.addr = none
      ∧ (State.reset.classify aRead).action = .overlay
      ∧ (State.reset.classify { aWrite with addr := 0x000C1#18 }).action = .refuse
      ∧ (State.reset.classify { aWrite with addr := 0x00040#18 }).action = .watch
      ∧ (State.reset.classify { aWrite with addr := 0x00080#18 }).action = .pass
      ∧ (State.reset.classify { aWrite with master := .processor, addr := 0x000C1#18 }).action = .take
      ∧ ((dialogue .password id).classify
          { aWrite with addr := 0x004A0#18, data := 0x0041#16 }).action = .alter
      ∧ tableAction State.reset aRead 0x0C5#15 = .overlay
      ∧ tableAction State.reset aWrite 0x7FFF#15 = .refuse
      ∧ tableAction State.reset aWrite 0x03F#15 = .pass := by
  decide +kernel

theorem witness_TheLatchRecordsRefusedWrites :
    State.reset.pins.porn = true ∧ refusesWrite .processor (region 0x0C5#15) = true
      ∧ refusesWrite .scanner (region 0x0C0#15) = true ∧ State.reset.bus.latch.valid = false
      ∧ (State.reset.refuse .scanner 0x0C0#15).bus.latch.valid = true := by
  decide +kernel

theorem witness_WindowsOpenCloseAndStartPostings :
    Memory.wf State.reset.mem = true ∧ State.reset.journal.queue = []
      ∧ (State.reset.queueRecord aRecord).journal.queue ≠ []
      ∧ (let s := State.reset.setWindow (some { left := 0, eligible := 1, ending := false })
         s.journal.window = some { left := 0, eligible := 1, ending := false } ∧ s.bus.owner ≠ .posting)
      ∧ (State.reset.setOwner .posting).bus.owner = .posting
      ∧ (let s := State.reset.setWindow (some { left := 6, eligible := 1, ending := false })
         s.startTest = true ∧ s.bus.owner = .free ∧ s.bus.waiting = [])
      ∧ (State.reset.enqueueCycle aRead).bus.waiting ≠ []
      ∧ State.reset.journal.window = none := by
  decide +kernel

theorem witness_APostingCompletionHandsTheRecordOver :
    let j := { Journal.reset with capacity := 64, head := 63, queue := [aRecord],
                                  window := some { left := 10, eligible := 2, ending := false } }
    let s := { State.reset.setOwner .posting with journal := j }
    s.pins.porn = true ∧ s.bus.owner = .posting ∧ s.journal.queue = aRecord :: []
      ∧ s.bus.waiting = [] ∧ s.answerQueue = [] ∧ Memory.wf s.mem = true ∧ s.bus.restarted = false
      ∧ s.journal.head < s.journal.capacity ∧ s.journal.capacity ≤ 1024
      ∧ s.journal.window = some { left := 10, eligible := 2, ending := false }
      ∧ (s.setWindow none).journal.window = none
      ∧ (s.enqueueCycle aWrite).bus.waiting = aWrite :: []
      ∧ (s.closeWindowAt aWrite).journal.window
          = some { left := 10, eligible := 2, ending := true } := by
  decide +kernel

theorem witness_ATailWriteHandsRecordsBack :
    let s := { State.reset with journal := { Journal.reset with capacity := 64, head := 0, visible := 64 } }
    s.pins.porn = true
      ∧ ((0x0000#16).extractLsb' 0 10).toNat < s.journal.capacity
      ∧ s.journal.advanceTo 0 = 64 ∧ s.journal.advanceTo 63 = 63 ∧ 63 ≤ s.journal.visible
      ∧ ({ s.journal with visible := 3 }).advanceTo 0 = 0
      ∧ ({ s.journal with visible := 3 }).visible < ({ s.journal with visible := 3 }).advanceTo 4
      ∧ s.journal.capacity ≤ ((0x0040#16).extractLsb' 0 10).toNat
      ∧ s.answerQueue = [] := by
  decide +kernel

theorem witness_ARecordCarriesItsSession :
    (signedOn id id).slot session.slot = some account := by
  decide +kernel

/-! ## Witnesses: answering and status words -/

theorem witness_GrantsGoToTheOldestEligibleLine :
    ({ planned .ringing with answerQueue := [5] }).nextGrant = some (0, 5)
      ∧ State.reset.nextGrant = none
      ∧ (let s := { planned .ringing with answerQueue := [5] }
         let s := { s with journal := { s.journal with lowMark := 63 } }
         s.journal.lowMark + 1 = s.credit ∧ s.nextGrant = some (0, 5)) := by
  decide +kernel

theorem witness_ARingArrivalQueuesTheLine :
    let s := planned .idle
    s.pins.porn = true ∧ Memory.wf s.mem = true ∧ (s.line 5).state = .idle
      ∧ (s.line 5).mode = .watched ∧ (s.line 5).lastRing = false ∧ s.plan.state = .planned
      ∧ (0x0002#16).getLsbD 1 = true ∧ (0x0002#16).getLsbD 0 = false
      ∧ ({ s with journal := Journal.reset }).credit = 0
      ∧ 1 ≤ s.credit ∧ (s.ctx 0).holder = none ∧ 5 ∉ s.answerQueue
      ∧ (s.line 5).recordPending = false := by
  decide +kernel

theorem witness_LineTimersExpire :
    let rings := lineIs { inState .ringing with ringGone := some 0, missed := 15 }
    let polite : Forced := { kind := .hangUp, manner := .polite, politeLeft := some 0, awaiting := none }
    let clears := lineIs { inState .clearing with
      clearing := some { ackSeen := true, timeLeft := 0, modeAfter := .off } }
    (rings.pins.porn = true ∧ (rings.line 5).state = .ringing ∧ (rings.line 5).ringGone = some 0)
      ∧ (State.reset.line 5).state ≠ .ringing
      ∧ ((lineIs { inState .clearing with forced := some polite }).line 5).forced = some polite
      ∧ polite.politeLeft = some 0
      ∧ (State.reset.line 5).forced = none
      ∧ (clears.line 5).state = .clearing
      ∧ (clears.line 5).clearing = some { ackSeen := true, timeLeft := 0, modeAfter := .off }
      ∧ (State.reset.line 5).state ≠ .clearing := by
  decide +kernel

theorem witness_CarrierRisingIsRefusedOrAnswered :
    let s := lineIs (inState .idle)
    let r := lineIs (inState .ringing)
    let a := (dialogue .answering id).updLine 5 fun r => { r with lastCarrier := false }
    (s.pins.porn = true ∧ Memory.wf s.mem = true ∧ (s.line 5).state = .idle
        ∧ (s.line 5).mode = .watched ∧ (0x0001#16).getLsbD 0 = true ∧ (s.line 5).lastCarrier = false)
      ∧ ((r.line 5).state = .ringing ∧ (r.line 5).mode = .watched)
      ∧ ((a.line 5).state = .answering ∧ (a.line 5).context = some 0
        ∧ (a.line 5).lastCarrier = false) := by
  decide +kernel

theorem witness_ACarrierFallStartsADoubt :
    let s := dialogue .name id
    let d := signedOn (fun r => { r with doubt := some 1 }) id
    (s.pins.porn = true ∧ Memory.wf s.mem = true ∧ (s.line 5).state = .name
        ∧ (s.line 5).doubt = none ∧ (0x0000#16).getLsbD 0 = false ∧ (s.line 5).lastCarrier = true)
      ∧ ((d.line 5).state = .signedOn ∧ (d.line 5).doubt ≠ none ∧ (0x0001#16).getLsbD 0 = true)
      ∧ (0x0001#16).getLsbD 0 = (s.line 5).lastCarrier := by
  decide +kernel

theorem witness_AQuietStatusWriteIsOnlySeen :
    let c := lineIs { inState .clearing with
      clearing := some { ackSeen := true, timeLeft := 1, modeAfter := .watched } }
    (State.reset.pins.porn = true ∧ Memory.wf State.reset.mem = true)
      ∧ ((lineIs (inState .passive)).line 5).state = .passive ∧ (State.reset.line 5).state = .off
      ∧ ((lineIs (inState .answering)).line 5).state = .answering
      ∧ ((lineIs (inState .idle)).line 5).state = .idle ∧ (lineIs (inState .idle)).plan.state ≠ .planned
      ∧ ((lineIs (inState .ringing)).line 5).state = .ringing
      ∧ ((c.line 5).state = .clearing
        ∧ (c.line 5).clearing = some { ackSeen := true, timeLeft := 1, modeAfter := .watched }
        ∧ (0x0002#16).getLsbD 0 = false) := by
  decide +kernel

/-! ## Witnesses: the end of a call, the handshake and the line cells -/

theorem witness_TheCausesOfADialogueClear :
    let s := (dialogue .answering fun c => { c with signOnTime := some 0 }).updLine 5 fun r =>
      { r with doubt := some 0, answer := some 0 }
    s.pins.porn = true ∧ 5 ∉ s.answerQueue ∧ (s.line 5).context = some 0
      ∧ (s.line 5).state = .answering ∧ (s.line 5).doubt = some 0 ∧ (s.line 5).answer = some 0
      ∧ (s.ctx 0).holder = some 5 ∧ (s.ctx 0).signOnTime = some 0
      ∧ ((0x0010#16).getLsbD 2 = false ∧ (0x0010#16).extractLsb' 4 2 = 1#2)
      ∧ ((0x0006#16).getLsbD 2 = true ∧ (0x0006#16).extractLsb' 4 2 = 0#2
        ∧ settingMode 0x0006#16 = some .passive ∧ (s.line 5).mode ≠ .passive) := by
  decide +kernel

theorem witness_TheCausesOfASessionClose :
    let g : Grace := { noBudget := true, bandBarred := false, left := 0 }
    let s := signedOn (fun r => { r with doubt := some 0 }) fun x => { x with grace := some g }
    s.pins.porn = true ∧ (s.line 5).state = .signedOn
      ∧ s.session 5 = some { session with grace := some g } ∧ s.slot 0 = some account
      ∧ (s.line 5).doubt = some 0 ∧ g.left = 0 ∧ account.cls ≠ .operator
      ∧ (s.line 5).idle = s.plan.idleLimit
      ∧ ((0x0020#16).getLsbD 2 = false ∧ (0x0020#16).extractLsb' 4 2 = 2#2)
      ∧ ((0x0004#16).getLsbD 2 = true ∧ (0x0004#16).extractLsb' 4 2 = 0#2
        ∧ settingMode 0x0004#16 = some .off ∧ (s.line 5).mode ≠ .off) := by
  decide +kernel

theorem witness_ExpiriesNotDueChangeNothing :
    State.reset.pins.porn = true ∧ (State.reset.line 5).doubt ≠ some 0
      ∧ (State.reset.line 5).state ≠ .answering ∧ (State.reset.ctx 0).holder = none
      ∧ State.reset.session 5 = none := by
  decide +kernel

theorem witness_AForcedCommandOverlaysTheRead :
    let f : Forced := { kind := .hangUp, manner := .polite, politeLeft := some 1, awaiting := none }
    let at' := fun f => lineIs { inState .clearing with forced := some f, txPut := 1 }
    (State.reset.pins.porn = true ∧ (State.reset.line 5).state = .off)
      ∧ (((at' f).line 5).state = .clearing ∧ ((at' f).line 5).forced = some f
        ∧ ((at' f).line 5).txPut ≠ ((at' f).line 5).txTake)
      ∧ ((at' { f with awaiting := some .answer }).line 5).forced
          = some { f with awaiting := some .answer }
      ∧ ((at' { f with politeLeft := none }).line 5).forced = some { f with politeLeft := none } := by
  decide +kernel

theorem witness_AnAcknowledgeIsTakenOrPasses :
    let f : Forced := { kind := .hangUp, manner := .rude, politeLeft := none, awaiting := some .answer }
    let s := lineIs { inState .clearing with forced := some f }
    (s.pins.porn = true ∧ Memory.wf s.mem = true ∧ (s.line 5).state = .clearing
        ∧ (s.line 5).forced = some f ∧ f.awaiting = some .answer)
      ∧ (State.reset.line 5).state = .off := by
  decide +kernel

theorem witness_TransmitIndicesTakeSixBits :
    State.reset.pins.porn = true ∧ Memory.wf State.reset.mem = true
      ∧ State.reset.areaOffset 0x0203F#18 = some 0x203F#15
      ∧ State.reset.areaOffset 0x0207F#18 = some 0x207F#15 := by
  decide +kernel

theorem witness_SettingWritesLoadModesAndHangUp :
    let polite : Forced := { kind := .hangUp, manner := .polite, politeLeft := some 1, awaiting := none }
    let c := lineIs { inState .clearing with forced := some polite }
    ((0x0007#16).getLsbD 2 = true ∧ (0x0007#16).extractLsb' 0 2 = 3#2)
      ∧ ((0x0030#16).getLsbD 2 = false ∧ (0x0030#16).extractLsb' 4 2 = 3#2)
      ∧ ((0x0005#16).getLsbD 2 = true ∧ (0x0005#16).extractLsb' 4 2 = 0#2
        ∧ settingMode 0x0005#16 = some .watched ∧ (State.reset.line 5).mode ≠ .watched
        ∧ (State.reset.line 5).state = .off)
      ∧ (settingMode 0x0004#16 = some .off ∧ (State.reset.line 5).mode = .off)
      ∧ (settingMode 0x0006#16 = some .passive ∧ (c.line 5).mode ≠ .passive)
      ∧ (settingHang 0x0020#16 = .request .rude ∧ settingHang 0x0010#16 = .request .polite)
      ∧ ((lineIs (inState .ringing)).line 5).state = .ringing
      ∧ ((c.line 5).state = .clearing ∧ (c.line 5).forced ≠ none)
      ∧ ((lineIs (inState .clearing)).line 5).forced = none
      ∧ (settingMode 0x0024#16 = some .off ∧ settingHang 0x0024#16 = .request .rude) := by
  decide +kernel

theorem witness_SessionStatusReadClearsTheMarks :
    let s := lineIs { inState .clearing with missed := 15 }
    s.pins.porn = true ∧ (s.line 5).missed ≤ 15 := by
  decide +kernel

/-! ## Witnesses: receive entries -/

theorem witness_AnEntryAddsItsMarks :
    State.reset.pins.porn = true ∧ Memory.wf State.reset.mem = true
      ∧ ((lineIs (inState .passive)).line 5).state = .passive ∧ (State.reset.line 5).state = .off
      ∧ ((dialogue .checking id).line 5).state = .checking
      ∧ ((signedOn id id).line 5).state = .signedOn := by
  decide +kernel

theorem witness_APasswordNeverReachesMemory :
    let s := dialogue .password fun c => { c with password := List.replicate 11 0x41#8 }
    s.pins.porn = true ∧ Memory.wf s.mem = true
      ∧ printable ((s.fill.extractLsb' 0 7).setWidth 8) = false
      ∧ (s.line 5).state = .password ∧ (s.line 5).context = some 0
      ∧ (0x21 ≤ ((0x0021#16).extractLsb' 0 7).toNat ∧ ((0x007E#16).extractLsb' 0 7).toNat ≤ 0x7E)
      ∧ (0x0021#16).extractLsb' 8 3 = 0#3 ∧ (s.ctx 0).password.length < 12
      ∧ ((0x0100#16).extractLsb' 8 3 ≠ 0#3 ∧ (0x0100#16).getLsbD 9 = false) ∧ (s.ctx 0).noise < 7
      ∧ ((0x0200#16).getLsbD 9 = true ∧ (0x0200#16).extractLsb' 0 8 = 0#8)
      ∧ ¬ 0x21 ≤ ((0x000D#16).extractLsb' 0 7).toNat := by
  decide +kernel

theorem witness_TypingEditsTheBuffers :
    let x := dialogue .name fun c => { c with name := List.replicate 12 0x41#8 }
    (x.pins.porn = true ∧ (x.line 5).context = some 0 ∧ (x.line 5).state = .name
        ∧ 12 ≤ (x.ctx 0).name.length ∧ (0x007E#16).extractLsb' 8 3 = 0#3)
      ∧ ((dialogue .name id).ctx 0).name.length < 12
      ∧ ((dialogue .password id).line 5).state = .password
      ∧ ((dialogue .password id).ctx 0).password.length < 12
      ∧ ((0x0008#16).extractLsb' 0 7).setWidth 8 = 0x08#8
      ∧ ((0x007F#16).extractLsb' 0 7).setWidth 8 = 0x7F#8
      ∧ ((0x0015#16).extractLsb' 0 7).setWidth 8 = 0x15#8
      ∧ (((0x0020#16).extractLsb' 0 7).setWidth 8 : Byte).toNat ≤ 0x20 := by
  decide +kernel

theorem witness_ACrEndsTheNameOrThePassword :
    let long := dialogue .name fun c => { c with name := [0x41#8], nameLong := true, attempts := 1 }
    let last := dialogue .name fun c => { c with name := [0x41#8], nameLong := true, attempts := 2 }
    let word := dialogue .password fun c => { c with name := [0x41#8], password := [0x41#8] }
    ((0x000D#16).extractLsb' 8 3 = 0#3 ∧ (0x000D#16).extractLsb' 0 7 = 0x0D#7)
      ∧ (((dialogue .name id).line 5).state = .name ∧ ((dialogue .name id).ctx 0).name = [])
      ∧ ((long.line 5).context = some 0 ∧ (long.ctx 0).nameLong = true ∧ (long.ctx 0).name ≠ []
        ∧ (long.ctx 0).attempts < 2 ∧ Memory.wf long.mem = true)
      ∧ (2 ≤ (last.ctx 0).attempts ∧ 5 ∉ last.answerQueue)
      ∧ ((word.line 5).state = .password ∧ (word.ctx 0).password ≠ [] ∧ (word.ctx 0).holder = some 5
        ∧ word.directory.inService = none ∧ word.directory.queue = [])
      ∧ ((dialogue .password id).ctx 0).password = []
      ∧ ((word.submit (.commit Staged.empty)).directory.inService ≠ none) := by
  decide +kernel

theorem witness_ABreakRestartsAndNoiseCounts :
    let s := dialogue .password fun c => { c with noise := 6 }
    let t := dialogue .name fun c => { c with noise := 7 }
    (s.pins.porn = true ∧ Memory.wf s.mem = true ∧ (s.line 5).context = some 0
        ∧ (s.line 5).state = .password ∧ (s.ctx 0).noise < 7)
      ∧ ((t.line 5).state = .name ∧ 7 ≤ (t.ctx 0).noise ∧ 5 ∉ t.answerQueue)
      ∧ ((0x0200#16).getLsbD 9 = true ∧ (0x0200#16).extractLsb' 0 8 = 0#8)
      ∧ ((0x0241#16).extractLsb' 8 3 ≠ 0#3 ∧ (0x0241#16).extractLsb' 0 8 ≠ 0#8) := by
  decide +kernel

/-! ## Witnesses: the directory and its loading -/

/-- Line 5 CHECKING on context 0 with its lookup of slot 0's account in service. -/
def checking (check : Word) (attempts : Nat) : State :=
  let s := (dialogue .checking fun c => { c with lookup := .inService, attempts := attempts }).setSlot 0
    (some account)
  { s with directory := { s.directory with inService := some (.lookup [0x41#8] check false 0 5) } }

theorem witness_RequestsAreServedInOrder :
    let s := dialogue .checking fun c => { c with lookup := .queued }
    let q := Request.lookup [0x41#8] 0 false 0 5
    let w := { s with directory := { s.directory with queue := [q, .commit Staged.empty] } }
    (w.pins.porn = true ∧ w.directory.inService = none
        ∧ w.directory.queue = q :: [.commit Staged.empty]
        ∧ (w.ctx 0).holder = some 5 ∧ (w.line 5).state = .checking ∧ (w.ctx 0).lookup = .queued)
      ∧ State.reset.directory.queue = [] ∧ (checking 0 0).directory.inService ≠ none := by
  decide +kernel

theorem witness_ALookupIsJudgedInOrder :
    (checking 0 0).slot 0 = some account ∧ account.name = [0x41#8]
      ∧ ((checking 0 0).slot 0).map (·.name) ≠ some [0x42#8] := by
  decide +kernel

theorem witness_AnAcceptedLookupOpensASession :
    let s := checking 0 0
    s.pins.porn = true ∧ s.directory.inService = some (.lookup [0x41#8] 0 false 0 5)
      ∧ s.lookupOutcome [0x41#8] 0 false = (.accept, some 0) ∧ s.slot 0 = some account
      ∧ (s.ctx 0).holder = some 5 ∧ (s.line 5).state = .checking ∧ (s.ctx 0).lookup = .inService
      ∧ 5 ∉ s.answerQueue ∧ s.directory.queue = [] ∧ s.answerQueue = [] := by
  decide +kernel

theorem witness_ARejectedLookupCountsAnAttempt :
    let s := checking 1 1
    let z := checking 1 2
    let f := (checking 1 0).updCtx 0 fun c => { c with holder := none }
    let w := { s with directory := { s.directory with queue := [.commit Staged.empty] } }
    w.directory.queue.head? = some (.commit Staged.empty) ∧
    (s.directory.inService = some (.lookup [0x41#8] 1 false 0 5)
        ∧ s.lookupOutcome [0x41#8] 1 false = (.reject .badPassword, some 0)
        ∧ (s.ctx 0).holder = some 5 ∧ (s.ctx 0).attempts < 2 ∧ s.directory.queue = [])
      ∧ (2 ≤ (z.ctx 0).attempts ∧ 5 ∉ z.answerQueue ∧ (z.line 5).context = some 0)
      ∧ ((f.ctx 0).holder ≠ some 5 ∧ f.directory.inService = some (.lookup [0x41#8] 1 false 0 5))
      ∧ ((checking 0 0).updCtx 0 fun c => { c with holder := none }).lookupOutcome [0x41#8] 0 false
          = (.accept, some 0) := by
  decide +kernel

theorem witness_TheCensusWalksTheSlots :
    let s := (signedOn id id).setCensus { active := true, condition := .active, cursor := 0 }
    s.pins.porn = true ∧ s.directory.census.active = true ∧ s.slot 0 = some account
      ∧ 0 < account.openSessions ∧ account.openSessions ≤ 4
      ∧ State.reset.directory.census.active = false
      ∧ (s.setCensus { active := true, condition := .active, cursor := 2048 }).directory.census.cursor
          = 2048 := by
  decide +kernel

/-- A staging record of ALTER slot 0 with the flags of `flags`, ending at offset 10. -/
def altering (flags : Word) : Staged :=
  { words := (Staged.empty.words.set 0 0x1000#16).set 1 flags
    fill := Vector.ofFn fun i => decide (i.val ≤ 10), last := 10 }

theorem witness_StagingWritesAreCaptured :
    let at' := fun x => State.reset.setStaging { Staging.reset with state := x }
    State.reset.pins.porn = true ∧ Memory.wf State.reset.mem = true
      ∧ (at' .fresh).directory.staging.state = .fresh
      ∧ (at' .filling).directory.staging.state = .filling
      ∧ (at' .pending).directory.staging.state = .pending := by
  decide +kernel

theorem witness_CommitWritesAreJudged :
    let g := (altering 0)
    ((State.reset.setStaging { Staging.reset with state := .pending }).directory.staging.state = .pending)
      ∧ ((0xA000#16).extractLsb' 12 4).toNat = g.last.val
      ∧ (0xA000#16).extractLsb' 0 11 = (g.word 0).extractLsb' 0 11
      ∧ ((0x9000#16).extractLsb' 12 4).toNat ≠ g.last.val
      ∧ (0xA001#16).extractLsb' 0 11 ≠ (g.word 0).extractLsb' 0 11
      ∧ (∀ j : Fin 16, j ≤ g.last → g.fill[j] = true) ∧ 10 ≤ g.last.val
      ∧ ¬ 10 ≤ Staged.empty.last.val
      ∧ (State.reset.directory.inService = none ∧ State.reset.directory.queue = []) := by
  decide +kernel

theorem witness_ACommitIsJudgedInOrder :
    let s := signedOn id id
    (altering 0).op = some .alter ∧ s.slot (altering 0).target = some account
      ∧ State.reset.slot (altering 0).target = none
      ∧ ({ altering 0 with words := Staged.empty.words }).op = some .load
      ∧ ({ altering 0 with words := Staged.empty.words.set 0 0x2000#16 }).op = some .erase
      ∧ ({ altering 0 with words := Staged.empty.words.set 0 0x3000#16 }).op = none
      ∧ (altering 0x0001#16).flagName = true ∧ (altering 0x0001#16).nameOk = false
      ∧ (altering 0x0010#16).flagMaxSess = true ∧ (altering 0x0010#16).maxSessionsOk = false := by
  decide +kernel

/-- A session of slot 0 with a NO_BUDGET grace of 7 seconds, and slot 0 with no budget, in a band that
STUDENT may not hold. -/
def graced : State :=
  let s := signedOn id fun x => { x with grace := some { noBudget := true, bandBarred := false, left := 7 } }
  let s := s.setSlot 0 (some { account with budget := 0 })
  { s with meter := { s.meter with permits := Vector.replicate 4 { signOn := 0xF#4, hold := 0#4 } } }

/-- R94, log 29: an ALTER that tops the budget up and makes BAND_BARRED due keeps the grace's seconds; one
that flags BUDGET alone ends the grace. -/
theorem test_alter_swaps_the_reason :
    let r := { altering 0x000C#16 with words := (altering 0x000C#16).words.set 10 5 }
    let b := { altering 0x0008#16 with words := (altering 0x0008#16).words.set 10 5 }
    ((graced.applyCommit r).session 5).bind (·.grace)
        = some { noBudget := false, bandBarred := true, left := 7 }
      ∧ ((graced.applyCommit b).session 5).bind (·.grace) = none := by
  decide +kernel

/-- R94, R142, log 28: where both reasons are new, the line's one WARNING entry shows BAND_BARRED. -/
theorem test_alter_warns_of_the_band_last :
    let s := graced.setSession 5 (some session)
    (s.applyCommit (altering 0x000C#16)).attention.queue 5 = [.warning 5 .bandBarred] := by
  decide +kernel

theorem witness_ACommitCompletionWritesTheSlot :
    let r := altering 0x0048#16
    let s := signedOn id id
    let s := { s with directory := { s.directory with inService := some (.commit r) } }
    s.pins.porn = true ∧ s.directory.inService = some (.commit r) ∧ s.directory.queue = []
      ∧ s.commitOutcome r = .done ∧ r.op = some .alter ∧ s.slot r.target = some account
      ∧ State.reset.commitOutcome r = .slotEmpty ∧ State.reset.directory.inService = none
      ∧ (altering 0x000C#16).flagClass = true ∧ (altering 0x000C#16).flagBudget = true
      ∧ graced.commitOutcome (altering 0x000C#16) = .done := by
  decide +kernel

/-! ## Witnesses: the Meter Unit -/

theorem witness_AShortTickRunsTheTimers :
    let s := { State.reset with meter := { Meter.reset with divisor := some 40000, shortTicks := 99 } }
    State.reset.meter.divisor = none ∧ s.pins.porn = true ∧ s.meter.divisor ≠ none
      ∧ s.meter.shortTicks + 1 = 100 ∧ State.reset.meter.shortTicks + 1 ≠ 100 := by
  decide +kernel

theorem witness_ASecondTickVisitsEverySession :
    let s := { State.reset with meter := { Meter.reset with secondsDue := 1, secondTicks := 59 } }
    State.reset.meter.secondsDue = 0 ∧ s.pins.porn = true ∧ 0 < s.meter.secondsDue := by
  decide +kernel

theorem witness_AVisitChargesASession :
    let g : Grace := { noBudget := false, bandBarred := true, left := 1 }
    let s := signedOn id fun x => { x with grace := some g }
    let s := { s with meter := { s.meter with tariffs := Vector.replicate 16 1 } }
    let free := signedOn id id
    let g2 := { g with left := 2 }
    let x2 := { session with grace := some g2 }
    let slow := signedOn id fun _ => x2
    let slow := { slow with meter := { slow.meter with tariffs := Vector.replicate 16 2 } }
    s.session 5 = some { session with grace := some g } ∧ s.slot 0 = some account
      ∧ account.cls ≠ .operator ∧ s.rate s.meter.band (s.line 5).speed = 1
      ∧ 1 ≤ session.charge + 1 ∧ 0 < account.budget
      ∧ free.rate free.meter.band (free.line 5).speed = 0
      ∧ slow.session 5 = some x2 ∧ slow.slot 0 = some account
      ∧ slow.rate slow.meter.band (slow.line 5).speed = 2 ∧ x2.charge + 1 < 2
      ∧ ((slow.visitSecond false 5 x2).session 5).bind Session.grace = some g2 ∧ 1 < g2.left
      ∧ ((s.visitSecond false 5 { session with grace := some g }).session 5).bind Session.grace
          = some { g with noBudget := true }
      ∧ (s.setSlot 0 (some { account with budget := 0 })).slot 0 = some { account with budget := 0 } := by
  decide +kernel

theorem witness_AMinuteTickAdvancesTheClock :
    let s := signedOn id id
    let s := { s with meter := { s.meter with minutesDue := 1, minute := 1439, weekday := 6 } }
    let s := { s with plan := { s.plan with idleWarn := 1, idleLimit := 2 } }
    State.reset.meter.minutesDue = 0 ∧ s.pins.porn = true ∧ 0 < s.meter.minutesDue
      ∧ s.session 5 = some session ∧ s.slot 0 = some account
      ∧ min ((s.line 5).idle + 1) 120 = s.plan.idleWarn
      ∧ min (((s.updLine 5 fun r => { r with idle := 1 }).line 5).idle + 1) 120 = s.plan.idleLimit
      ∧ (let both := { s with plan := { s.plan with idleLimit := 1 } }
         min ((both.line 5).idle + 1) 120 = both.plan.idleLimit
           ∧ both.plan.idleLimit = both.plan.idleWarn)
      ∧ ((s.setSlot 0 (some { account with lock := .timed 0 })).slot 0).map (·.lock)
          = some (.timed 0) := by
  decide +kernel

theorem witness_ClockWritesReevaluateTheBand :
    let m := { Meter.reset with bandStarts := ⟨#[540, 1020, 1320, 540], rfl⟩, weekend := 0x60#7 }
    (m.weekend.getLsbD m.weekday = false ∧ ∀ c, m.minute < m.bandStart c)
      ∧ (∀ c, m.bandStart c < m.bandStart 2 ∨ m.bandStart c = m.bandStart 2 ∧ c ≤ 2)
      ∧ ({ m with weekday := 6 }).weekend.getLsbD 6 = true
      ∧ (m.bandStart 3 ≤ 540 ∧ ∀ c, m.bandStart c ≤ 540 →
          m.bandStart c < m.bandStart 3 ∨ m.bandStart c = m.bandStart 3 ∧ c ≤ 3)
      ∧ (((0x659F#16).extractLsb' 0 11).toNat < 1440 ∧ ((0x659F#16).extractLsb' 12 3).toNat < 7)
      ∧ 1440 ≤ ((0x05A0#16).extractLsb' 0 11).toNat ∧ 7 ≤ ((0x7000#16).extractLsb' 12 3).toNat
      ∧ State.reset.pins.porn = true := by
  decide +kernel

theorem witness_TableWritesTakeEffect :
    State.reset.pins.porn = true ∧ ((0x059F#16).extractLsb' 0 11).toNat < 1440
      ∧ 1440 ≤ ((0x05A0#16).extractLsb' 0 11).toNat ∧ ((0x0E10#16).extractLsb' 0 12).toNat ≤ 3600
      ∧ 3600 < ((0x0E11#16).extractLsb' 0 12).toNat := by
  decide +kernel

/-! ## Witnesses: attention, the plan and the cycles -/

theorem witness_APollTakesTheHighestClass :
    let a := (State.reset.give (.rejected 5 .noisy)).attention
    (State.reset.pins.porn = true ∧ ∀ k, State.reset.attention.queue k = [])
      ∧ a.queue 2 = [.rejected 5 .noisy] ∧ a.mask.getLsbD 2 = false ∧ a.served 2 = none
      ∧ (∀ j, j ≠ 2 → a.queue j = []) ∧ (∀ j, a.served j = none) := by
  decide +kernel

theorem witness_AttentionCommandsActOnTheirClass :
    let a := Attention.reset.setServed 2 (some (.rejected 5 .noisy))
    (State.reset.pins.porn = true ∧ ∀ j, State.reset.attention.served j = none)
      ∧ a.served 2 ≠ none ∧ (∀ i, i ≠ 2 → a.served i = none) := by
  decide +kernel

theorem witness_APlanStartBeginsAtWordTwo :
    (State.reset.pins.porn = true ∧ (∀ n, (State.reset.line n).state = .off)
        ∧ State.reset.journal.queue = [] ∧ State.reset.bus.owner ≠ .posting)
      ∧ ((dialogue .name id).line 5).state = .name := by
  decide +kernel

theorem witness_PlanWordsFollowInOrder :
    let at' := fun k => State.reset.setPlan { Plan.reset with state := .planning k }
    (∀ k ∈ [2, 3, 4, 5, 6, 7, 8, 9, 10, 11], (at' k).plan.state = .planning k)
      ∧ (at' 11).answerQueue = [] ∧ 1000 ≤ (0x03E8#16).toNat ∧ ¬ 1000 ≤ (0x03E7#16).toNat
      ∧ (0x3F04#16).extractLsb' 0 3 = 4#3 ∧ planWordOk 4 0x0001#16 = true
      ∧ planWordOk 5 0x0005#16 = true ∧ planWordOk 6 0x1E3C#16 = true ∧ planWordOk 7 0x0258#16 = true
      ∧ planWordOk 8 0x5A0F#16 = true ∧ planWordOk 9 0x7877#16 = true
      ∧ planWordOk 10 0x963C#16 = true ∧ planWordOk 9 0x7878#16 = false
      ∧ State.reset.plan.state = .unplanned ∧ (planned .idle).plan.state = .planned := by
  decide +kernel

theorem witness_ATakenCycleRunsItsRow :
    State.reset.pins.porn = true ∧ State.reset.areaOffset 0x000C0#18 = some 0x0C0#15
      ∧ State.reset.areaOffset 0x0043F#18 = some (BitVec.ofNat 15 (0x400 + 32 * 1 + 31))
      ∧ (0x0100#16).extractLsb' 8 3 = 1#3 ∧ (0x0507#16).extractLsb' 8 3 = 5#3
      ∧ ((0x0507#16).extractLsb' 0 3).toNat = (7 : ClassNo).val
      ∧ (0x0600#16).extractLsb' 8 3 = 6#3 ∧ refusesWrite .processor (region 0x7FFF#15) = true := by
  decide +kernel

theorem witness_OverlayReadsShowTheState :
    State.reset.areaOffset 0x003FF#18 = some (BitVec.ofNat 15 (0x300 + 4 * 63 + 3))
      ∧ State.reset.session 63 = none
      ∧ ((signedOn id id).session 5 = some session ∧ (signedOn id id).slot 0 = some account)
      ∧ State.reset.journal.head < 1024 ∧ State.reset.meter.minute < 2048
      ∧ State.reset.meter.weekday < 8 ∧ State.reset.plan.state = .unplanned := by
  decide +kernel

/-! ## Witnesses: the invariants -/

/-- Line 5 SIGNED_ON on slot 0 in a planned part, with a command waiting. -/
def inSession : State :=
  { signedOn id id with
    plan := { Plan.reset with state := .planned, lockTime := 1440, graceSeconds := 600 }
    journal := { Journal.reset with capacity := 64, tail := 63, visible := 1, head := 0 }
    pending := [.shortTick] }

/-- The one account of `inSession`. -/
theorem slot_inSession {i : SlotNo} {a : Account} (h : inSession.slot i = some a) :
    i = 0 ∧ a = account := by
  by_cases hi : i = 0
  · subst hi
    have h0 : inSession.slot 0 = some account := by decide +kernel
    rw [h0] at h
    exact ⟨rfl, (Option.some.inj h).symm⟩
  · have hv : (0 : Nat) ≠ i.val := fun e => hi (Fin.ext e.symm)
    have hn : inSession.slot i = none := by
      show (((Vector.replicate 2048 none).set 0 (some account)) : Vector (Option Account) 2048)[i.val] = none
      rw [Vector.getElem_set_ne _ _ hv]
      simp
    rw [hn] at h
    cases h

theorem witness_EveryStepKeeps :
    ∃ t, step inSession = .next t := ⟨_, rfl⟩

theorem witness_EveryStepKeepsMemoryCanonical : MemoryCanonical inSession := by
  show Memory.wf inSession.mem = true
  decide +kernel

theorem witness_EveryStepKeepsAttentionExact : AttnExact inSession ∧ SubjectsOnce inSession := by
  refine ⟨by show inSession.pins.attn = inSession.attention.anyPollable; decide +kernel, fun k => ?_⟩
  have h1 : inSession.attention.queue k = [] := by revert k; decide +kernel
  have h2 : inSession.attention.served k = none := by revert k; decide +kernel
  rw [h1, h2]
  exact ⟨List.nodup_nil, (fun e he => by cases he), (fun e he => by cases he)⟩

theorem witness_EveryStepKeepsTheLinks : WellLinked inSession := by
  refine ⟨⟨by decide +kernel, by decide +kernel⟩, ⟨by decide +kernel, by decide +kernel⟩, ?_⟩
  show ∀ n, ((inSession.session n).isSome = true ↔ (inSession.line n).state = .signedOn)
    ∧ ((inSession.line n).clearing.isSome = true ↔ (inSession.line n).state = .clearing)
  decide +kernel

theorem witness_EveryStepKeepsValuesLawful :
    BudgetsBalance inSession ∧ FillUnprintable inSession ∧ NamesUnique inSession
      ∧ WellLinked inSession ∧ InRange inSession := by
  have hs : ∀ n, inSession.session n = none ∨ inSession.session n = some session := by decide +kernel
  have hl : LinesInRange inSession := by
    show ∀ n, (inSession.line n).missed ≤ 15 ∧ (inSession.line n).idle ≤ 120
    decide +kernel
  have hc : ContextsInRange inSession := by
    show ∀ k, (inSession.ctx k).attempts ≤ 2 ∧ (inSession.ctx k).noise ≤ 8
      ∧ (inSession.ctx k).name.length ≤ 12 ∧ (inSession.ctx k).password.length ≤ 12
      ∧ ((inSession.ctx k).holder ≠ none → (inSession.ctx k).noise ≤ 7)
    decide +kernel
  have hi : SlotsInRange inSession := by
    refine ⟨fun i a h => ?_, by decide +kernel⟩
    obtain ⟨_, rfl⟩ := slot_inSession h
    exact ⟨by decide, by decide, by decide, by decide, by decide, by decide, by decide, by decide,
      by decide, by decide, fun m h => by cases h⟩
  have hk : ClockInRange inSession :=
    ⟨by decide +kernel, by decide +kernel, by decide +kernel, by decide +kernel, by decide +kernel,
      by decide +kernel⟩
  have hx : SessionsInRange inSession := by
    intro n x h
    rcases hs n with e | e <;> rw [e] at h <;> cases h
    exact ⟨by decide, by decide, by decide, by decide, by decide, fun c h => by cases h⟩
  have hr : RingInRange inSession :=
    ⟨by decide +kernel, by decide +kernel, by decide +kernel, by decide +kernel⟩
  have hp : PlanInRange inSession :=
    ⟨by decide +kernel, by decide +kernel, (fun k h => by cases h), (fun h => by cases h)⟩
  refine ⟨fun i a h => ?_, ?_, fun i j a b h g _ => ?_, witness_EveryStepKeepsTheLinks, hl, hc, hi, hk, hx,
    hr, hp⟩
  · obtain ⟨_, rfl⟩ := slot_inSession h
    rfl
  · show printable ((inSession.fill.extractLsb' 0 7).setWidth 8) = false
    decide +kernel
  · rw [(slot_inSession h).1, (slot_inSession g).1]

theorem witness_EveryStepKeepsTheJournalsAccounts :
    WellLinked inSession ∧ CreditBounded inSession ∧ RingPlaced inSession ∧ RecordsPending inSession :=
  ⟨witness_EveryStepKeepsTheLinks, ⟨by decide +kernel, fun k h => by cases h⟩,
    ⟨by decide +kernel, by decide +kernel⟩, by decide +kernel, by decide +kernel, by decide +kernel⟩

theorem witness_EveryStepKeepsSessionsCounted :
    WellLinked inSession ∧ SessionsCounted inSession := by
  refine ⟨witness_EveryStepKeepsTheLinks, fun n x h => ?_, fun i a h => ?_⟩
  · have hs : ∀ n, inSession.session n = none ∨ inSession.session n = some session := by decide +kernel
    rcases hs n with e | e <;> rw [e] at h <;> cases h
    decide +kernel
  · obtain ⟨rfl, rfl⟩ := slot_inSession h
    decide +kernel

end Sys2Proof.Tests
end

section
/-!
SUPPORT. What a step keeps: one relation between two states that says every invariant of a lawful part
goes over from the first to the second, its composition, and how a frame gives most of it.
-/

namespace Sys2Proof.Machine

-- One proof after another: a default `by` argument waits for every earlier proof of the text.
set_option Elab.async false

/-! ## The invariants that are kept together -/

/-- A part whose links, budgets and counted values are as the rules have them. -/
def Lawful (s : State) : Prop := WellLinked s ∧ BudgetsBalance s ∧ InRange s

/-- No line holds a context and no lookup is made: what R74 has of a part that was never PLANNED. -/
def Unanswered (s : State) : Prop :=
  (∀ n, (s.line n).context = none) ∧ (∀ q ∈ s.directory.queue, q.isCommit = true)
    ∧ ∀ q, s.directory.inService = some q → q.isCommit = true

/-- Every invariant goes over from the first state to the second. -/
structure Keeps (s t : State) : Prop where
  budgets : BudgetsBalance s → BudgetsBalance t
  fill : FillUnprintable s → FillUnprintable t
  names : NamesUnique s → NamesUnique t
  links : WellLinked s → WellLinked t
  range : Lawful s → InRange t

theorem Lawful.linked {s : State} (h : Lawful s) : WellLinked s := h.1
theorem Lawful.balanced {s : State} (h : Lawful s) : BudgetsBalance s := h.2.1
theorem Lawful.inRange {s : State} (h : Lawful s) : InRange s := h.2.2

theorem InRange.lines {s : State} (h : InRange s) : LinesInRange s := h.1
theorem InRange.contexts {s : State} (h : InRange s) : ContextsInRange s := h.2.1
theorem InRange.slots {s : State} (h : InRange s) : SlotsInRange s := h.2.2.1
theorem InRange.clock {s : State} (h : InRange s) : ClockInRange s := h.2.2.2.1
theorem InRange.sessions {s : State} (h : InRange s) : SessionsInRange s := h.2.2.2.2.1
theorem InRange.ring {s : State} (h : InRange s) : RingInRange s := h.2.2.2.2.2.1
theorem InRange.plan {s : State} (h : InRange s) : PlanInRange s := h.2.2.2.2.2.2

theorem Keeps.lawful {s t : State} (h : Keeps s t) (hs : Lawful s) : Lawful t :=
  ⟨h.links hs.linked, h.budgets hs.balanced, h.range hs⟩

theorem Keeps.refl (s : State) : Keeps s s := ⟨id, id, id, id, Lawful.inRange⟩

theorem Keeps.trans {s t u : State} (h : Keeps s t) (h' : Keeps t u) : Keeps s u :=
  ⟨h'.budgets ∘ h.budgets, h'.fill ∘ h.fill, h'.names ∘ h.names, h'.links ∘ h.links,
    fun hs => h'.range (h.lawful hs)⟩

theorem Keeps.ite {s t u : State} {c : Prop} [Decidable c] (h : c → Keeps s t)
    (h' : ¬ c → Keeps s u) : Keeps s (if c then t else u) := by
  split
  · exact h ‹_›
  · exact h' ‹_›

/-- A walk over the sessions keeps what every visit keeps. -/
theorem Keeps.forSessions {s t : State} {f : LineNo → Session → State → State} (h : Keeps s t)
    (visit : ∀ n x u, u.session n = some x → Keeps u (f n x u)) : Keeps s (t.forSessions f) :=
  State.forSessions_induction (P := Keeps s) h fun n x u hu hx => hu.trans (visit n x u hx)

/-! ## Each range, from the blocks it reads -/

theorem FillUnprintable.of_same {s t : State} (h : Block.fill.same s t) (hs : FillUnprintable s) :
    FillUnprintable t := by
  have h : t.fill = s.fill := h
  simpa only [FillUnprintable, h] using hs

theorem BudgetsBalance.of_slots {s t : State} (h : ∀ i, t.slot i = s.slot i) (hs : BudgetsBalance s) :
    BudgetsBalance t := fun i a ha => hs i a (h i ▸ ha)

theorem NamesUnique.of_slots {s t : State} (h : ∀ i, t.slot i = s.slot i) (hs : NamesUnique s) :
    NamesUnique t := fun i j a b ha hb => hs i j a b (h i ▸ ha) (h j ▸ hb)

theorem LinesInRange.of_lines {s t : State} (h : ∀ n, t.line n = s.line n) (hs : LinesInRange s) :
    LinesInRange t := fun n => by simpa only [h n] using hs n

theorem ContextsInRange.of_contexts {s t : State} (h : ∀ k, t.ctx k = s.ctx k)
    (hs : ContextsInRange s) : ContextsInRange t := fun k => by simpa only [h k] using hs k

theorem ClockInRange.of_same {s t : State} (ht : Block.timebase.same s t) (hc : Block.clock.same s t)
    (hb : Block.tables.same s t) (hs : ClockInRange s) : ClockInRange t := by
  obtain ⟨-, hshort, hsec, -, -⟩ := ht
  obtain ⟨hmin, hday, -⟩ := hc
  obtain ⟨htar, hst, -, -⟩ := hb
  simpa only [ClockInRange, Meter.bandStart, State.rate, hshort, hsec, hmin, hday, htar, hst] using hs

theorem SessionsInRange.of_sessions {s t : State} (h : ∀ n, t.session n = s.session n)
    (hs : SessionsInRange s) : SessionsInRange t := fun n x hx => hs n x (h n ▸ hx)

theorem RingInRange.of_same {s t : State} (h : Block.ring.same s t) (hs : RingInRange s) :
    RingInRange t := by
  obtain ⟨hcap, hhead, htail, -, hlow⟩ := h
  simpa only [RingInRange, hcap, hhead, htail, hlow] using hs

theorem Unanswered.of_same {s t : State} (hl : ∀ n, t.line n = s.line n)
    (hq : Block.requests.same s t) (hs : Unanswered s) : Unanswered t := by
  obtain ⟨hqueue, hserv⟩ := hq
  simpa only [Unanswered, hl, hqueue, hserv] using hs

/-- The plan's ranges go over where its values and the capacity stand and an unanswered part stays one. -/
theorem PlanInRange.of_plan {s t : State} (hp : t.plan = s.plan)
    (hc : t.journal.capacity = s.journal.capacity)
    (hu : s.plan.state ≠ .planned → Unanswered s → Unanswered t) (hs : PlanInRange s) :
    PlanInRange t := by
  obtain ⟨hlock, hgrace, hnext, hzero⟩ := hs
  rw [PlanInRange, hp, hc]
  refine ⟨hlock, hgrace, hnext, fun h0 => ?_⟩
  obtain ⟨hplanned, hk, hun⟩ := hzero h0
  exact ⟨hplanned, hk, hu hplanned hun⟩

/-! ## The links of one line -/

/-- Line n agrees with the answer queue, the contexts and its session record. -/
def LineLinked (s : State) (n : LineNo) : Prop :=
  (n ∈ s.answerQueue ↔ (s.line n).state = .ringing)
    ∧ (∀ k, (s.line n).context = some k ↔ (s.ctx k).holder = some n)
    ∧ (s.line n).context.isSome = (s.line n).state.inDialogue
    ∧ ((s.session n).isSome = true ↔ (s.line n).state = .signedOn)
    ∧ ((s.line n).clearing.isSome = true ↔ (s.line n).state = .clearing)

/-- What line m's links are read from is as before. -/
def LinksSame (s t : State) (m : LineNo) : Prop :=
  (m ∈ t.answerQueue ↔ m ∈ s.answerQueue) ∧ (t.line m).state = (s.line m).state
    ∧ (t.line m).context = (s.line m).context
    ∧ (t.line m).clearing.isSome = (s.line m).clearing.isSome
    ∧ (t.session m).isSome = (s.session m).isSome
    ∧ ∀ k, (t.ctx k).holder = some m ↔ (s.ctx k).holder = some m

theorem wellLinked_iff {s : State} :
    WellLinked s ↔ s.answerQueue.Nodup ∧ ∀ n, LineLinked s n := by
  constructor
  · rintro ⟨⟨hnodup, hq⟩, ⟨hc, hd⟩, hr⟩
    exact ⟨hnodup, fun n => ⟨hq n, hc n, hd n, (hr n).1, (hr n).2⟩⟩
  · rintro ⟨hnodup, h⟩
    exact ⟨⟨hnodup, fun n => (h n).1⟩, ⟨fun n => (h n).2.1, fun n => (h n).2.2.1⟩,
      fun n => ⟨(h n).2.2.2.1, (h n).2.2.2.2⟩⟩

theorem WellLinked.nodup {s : State} (h : WellLinked s) : s.answerQueue.Nodup := h.1.1

theorem WellLinked.line {s : State} (h : WellLinked s) (n : LineNo) : LineLinked s n :=
  (wellLinked_iff.mp h).2 n

theorem LineLinked.of_same {s t : State} {n : LineNo} (same : LinksSame s t n) (h : LineLinked s n) :
    LineLinked t n := by
  obtain ⟨hq, hst, hc, hcl, hse, hk⟩ := same
  simpa only [LineLinked, hq, hst, hc, hcl, hse, hk] using h

/-- Where every line's links but line n's are as before, line n's are all that is left to show. -/
theorem WellLinked.of_line {s t : State} (n : LineNo) (h : WellLinked s)
    (others : ∀ m, m ≠ n → LinksSame s t m) (nodup : t.answerQueue.Nodup) (own : LineLinked t n) :
    WellLinked t := by
  refine wellLinked_iff.mpr ⟨nodup, fun m => ?_⟩
  by_cases hm : m = n
  · exact hm ▸ own
  · exact (h.line m).of_same (others m hm)

/-- Where every line's links are as before, the part is as well linked as it was. -/
theorem WellLinked.of_same {s t : State} (h : WellLinked s) (hq : t.answerQueue = s.answerQueue)
    (same : ∀ m, LinksSame s t m) : WellLinked t :=
  wellLinked_iff.mpr ⟨hq ▸ h.nodup, fun m => (h.line m).of_same (same m)⟩

/-! ## What a frame keeps -/

/-- The invariants go over from a state to one that differs in the listed blocks only, where each
invariant that reads a listed block is shown to. -/
theorem Keeps.of_frame {bs : List Block} {s t : State} (frame : SameBut bs s t)
    (fill : .fill ∈ bs → FillUnprintable s → FillUnprintable t :=
      by exact fun h => absurd h (by decide))
    (budgets : .slots ∈ bs → BudgetsBalance s → BudgetsBalance t :=
      by exact fun h => absurd h (by decide))
    (names : .slots ∈ bs → NamesUnique s → NamesUnique t :=
      by exact fun h => absurd h (by decide))
    (slots : .slots ∈ bs ∨ .census ∈ bs → Lawful s → SlotsInRange t :=
      by exact fun h => absurd h (by decide))
    (links : .lines ∈ bs ∨ .answerQueue ∈ bs ∨ .contexts ∈ bs ∨ .sessions ∈ bs →
        WellLinked s → WellLinked t :=
      by exact fun h => absurd h (by decide))
    (lines : .lines ∈ bs → Lawful s → LinesInRange t :=
      by exact fun h => absurd h (by decide))
    (contexts : .contexts ∈ bs → Lawful s → ContextsInRange t :=
      by exact fun h => absurd h (by decide))
    (clock : .timebase ∈ bs ∨ .clock ∈ bs ∨ .tables ∈ bs → Lawful s → ClockInRange t :=
      by exact fun h => absurd h (by decide))
    (sessions : .sessions ∈ bs → Lawful s → SessionsInRange t :=
      by exact fun h => absurd h (by decide))
    (ring : .ring ∈ bs → Lawful s → RingInRange t :=
      by exact fun h => absurd h (by decide))
    (plan : .plan ∈ bs ∨ .ring ∈ bs → Lawful s → PlanInRange t :=
      by exact fun h => absurd h (by decide))
    (unanswered : .lines ∈ bs ∨ .requests ∈ bs → WellLinked s → s.plan.state ≠ .planned →
        Unanswered s → Unanswered t :=
      by exact fun h => absurd h (by decide)) : Keeps s t where
  budgets hs := by
    by_cases hb : .slots ∈ bs
    · exact budgets hb hs
    · exact hs.of_slots (frame.slot hb)
  fill hs := by
    by_cases hb : .fill ∈ bs
    · exact fill hb hs
    · exact hs.of_same (frame _ hb)
  names hs := by
    by_cases hb : .slots ∈ bs
    · exact names hb hs
    · exact hs.of_slots (frame.slot hb)
  links hs := by
    by_cases hb : .lines ∈ bs ∨ .answerQueue ∈ bs ∨ .contexts ∈ bs ∨ .sessions ∈ bs
    · exact links hb hs
    · simp only [not_or] at hb
      obtain ⟨hl, hq, hc, hx⟩ := hb
      have hq' : t.answerQueue = s.answerQueue := frame _ hq
      refine hs.of_same hq' fun m => ⟨by rw [hq'], ?_⟩
      simp only [frame.line hl, frame.session hx, frame.ctx hc, true_and, implies_true]
  range hs := by
    refine ⟨?_, ?_, ?_, ?_, ?_, ?_, ?_⟩
    · by_cases hb : .lines ∈ bs
      · exact lines hb hs
      · exact hs.inRange.lines.of_lines (frame.line hb)
    · by_cases hb : .contexts ∈ bs
      · exact contexts hb hs
      · exact hs.inRange.contexts.of_contexts (frame.ctx hb)
    · by_cases hb : .slots ∈ bs ∨ .census ∈ bs
      · exact slots hb hs
      · simp only [not_or] at hb
        have hc : t.directory.census = s.directory.census := frame _ hb.2
        simpa only [SlotsInRange, frame.slot hb.1, hc] using hs.inRange.slots
    · by_cases hb : .timebase ∈ bs ∨ .clock ∈ bs ∨ .tables ∈ bs
      · exact clock hb hs
      · simp only [not_or] at hb
        exact hs.inRange.clock.of_same (frame _ hb.1) (frame _ hb.2.1) (frame _ hb.2.2)
    · by_cases hb : .sessions ∈ bs
      · exact sessions hb hs
      · exact hs.inRange.sessions.of_sessions (frame.session hb)
    · by_cases hb : .ring ∈ bs
      · exact ring hb hs
      · exact hs.inRange.ring.of_same (frame _ hb)
    · by_cases hb : .plan ∈ bs ∨ .ring ∈ bs
      · exact plan hb hs
      · simp only [not_or] at hb
        have hr : Block.ring.same s t := frame _ hb.2
        refine hs.inRange.plan.of_plan (frame _ hb.1) hr.1 fun hp hu => ?_
        by_cases hb' : .lines ∈ bs ∨ .requests ∈ bs
        · exact unanswered hb' hs.linked hp hu
        · simp only [not_or] at hb'
          exact hu.of_same (frame.line hb'.1) (frame _ hb'.2)

end Sys2Proof.Machine
end

section
/-!
SUPPORT. What the elementary changes of a call keep: a line record replaced, a line leaving or joining the
answer queue, a grant, a context released, a call accepted and a session closed.
-/

namespace Sys2Proof.Machine

-- One proof after another: a default `by` argument waits for every earlier proof of the text.
set_option Elab.async false

/-! ## One record changed, the others as before -/

theorem LinesInRange.of_line {s t : State} (n : LineNo) (hs : LinesInRange s)
    (others : OtherLines n s t) (own : (t.line n).missed ≤ 15 ∧ (t.line n).idle ≤ 120) :
    LinesInRange t := by
  intro m
  by_cases hm : m = n
  · exact hm ▸ own
  · rw [others m hm]
    exact hs m

/-- A context's counted values are within their ranges (R40, R50). -/
def Context.inRange (c : Context) : Prop :=
  c.attempts ≤ 2 ∧ c.noise ≤ 8 ∧ c.name.length ≤ 12 ∧ c.password.length ≤ 12
    ∧ (c.holder ≠ none → c.noise ≤ 7)

theorem contextsInRange_iff {s : State} : ContextsInRange s ↔ ∀ k, (s.ctx k).inRange := Iff.rfl

theorem ContextsInRange.of_ctx {s t : State} (k : CtxNo) (hs : ContextsInRange s)
    (others : OtherContexts k s t) (own : (t.ctx k).inRange) : ContextsInRange t := by
  intro j
  by_cases hj : j = k
  · exact hj ▸ own
  · rw [others j hj]
    exact hs j

theorem SessionsInRange.of_session {s t : State} (n : LineNo) (hs : SessionsInRange s)
    (others : OtherSessions n s t) (own : ∀ x, t.session n = some x → x.inRange) :
    SessionsInRange t := by
  intro m x hx
  by_cases hm : m = n
  · exact own x (hm ▸ hx)
  · exact hs m x (others m hm ▸ hx)

theorem State.line_of_lines {s t : State} {n : LineNo} {r : LineRecord}
    (h : t.lines = s.lines.set n r) : t.line n = r := by
  simp [State.line, h]

theorem State.otherLines_of_lines {s t : State} {n : LineNo} {r : LineRecord}
    (h : t.lines = s.lines.set n r) : OtherLines n s t := by
  intro m hm
  simp [State.line, h, Fin.val_inj, Ne.symm hm]

theorem State.ctx_of_contexts {s t : State} {k : CtxNo} {c : Context}
    (h : t.contexts = s.contexts.set k c) : t.ctx k = c := by
  simp [State.ctx, h]

theorem State.otherContexts_of_contexts {s t : State} {k : CtxNo} {c : Context}
    (h : t.contexts = s.contexts.set k c) : OtherContexts k s t := by
  intro j hj
  simp [State.ctx, h, Fin.val_inj, Ne.symm hj]

theorem State.otherLines_setLine (s : State) (n : LineNo) (r : LineRecord) :
    OtherLines n s (s.setLine n r) := fun _ hm => s.line_setLine_other r hm

theorem State.otherContexts_setCtx (s : State) (k : CtxNo) (c : Context) :
    OtherContexts k s (s.setCtx k c) := fun _ hj => s.ctx_setCtx_other c hj

theorem State.otherSessions_setSession (s : State) (n : LineNo) (x : Option Session) :
    OtherSessions n s (s.setSession n x) := fun _ hm => s.session_setSession_other x hm

/-- The links of a line are as before where its record, its place on the answer queue, its session record
and the contexts it holds are. -/
theorem LinksSame.of_eq {s t : State} {m : LineNo} (hl : t.line m = s.line m)
    (hq : m ∈ t.answerQueue ↔ m ∈ s.answerQueue) (hx : t.session m = s.session m)
    (hk : ∀ k, (t.ctx k).holder = some m ↔ (s.ctx k).holder = some m) : LinksSame s t m :=
  ⟨hq, by rw [hl], by rw [hl], by rw [hl], by rw [hx], hk⟩

/-- A context that no line but n holds, before and after, is no other line's. -/
theorem holder_iff_of_ctx {s t : State} {k : CtxNo} {n : LineNo} (others : OtherContexts k s t)
    (before : ∀ m, (s.ctx k).holder = some m → m = n)
    (after : ∀ m, (t.ctx k).holder = some m → m = n) {m : LineNo} (hm : m ≠ n) (j : CtxNo) :
    (t.ctx j).holder = some m ↔ (s.ctx j).holder = some m := by
  by_cases hj : j = k
  · subst hj
    exact ⟨fun h => absurd (after m h) hm, fun h => absurd (before m h) hm⟩
  · rw [others j hj]

/-! ## A line record replaced -/

/-- A record that may take the place of another while the line's call, or its rest, goes on: the context
and the kind of the state stay, and the counts stay in range. -/
structure LineRecord.SameCall (old r : LineRecord) : Prop where
  context : r.context = old.context
  dialogue : r.state.inDialogue = old.state.inDialogue
  ringing : r.state = .ringing ↔ old.state = .ringing
  signedOn : r.state = .signedOn ↔ old.state = .signedOn
  clearing : (old.clearing.isSome = true ↔ old.state = .clearing) →
    (r.clearing.isSome = true ↔ r.state = .clearing)
  missed : old.missed ≤ 15 → r.missed ≤ 15
  idle : old.idle ≤ 120 → r.idle ≤ 120

/-- A record whose state, context, clearing record and counts are as before. -/
theorem LineRecord.SameCall.of_eq {old r : LineRecord} (state : r.state = old.state := by rfl)
    (context : r.context = old.context := by rfl)
    (clearing : r.clearing.isSome = old.clearing.isSome := by rfl)
    (missed : r.missed = old.missed := by rfl) (idle : r.idle = old.idle := by rfl) :
    old.SameCall r := by
  constructor <;> simp only [state, context, clearing, missed, idle, imp_self]

theorem Keeps.setLine {s : State} {n : LineNo} {r : LineRecord} (h : (s.line n).SameCall r) :
    Keeps s (s.setLine n r) := by
  have others := s.otherLines_setLine n r
  have own := s.line_setLine_same n r
  refine Keeps.of_frame (s.frame_setLine n r) (links := fun _ hs => ?_) (lines := fun _ hs => ?_)
    (unanswered := fun _ _ _ hu => ⟨fun m => ?_, hu.2⟩)
  · obtain ⟨hq, hk, hd, hx, hc⟩ := hs.line n
    refine hs.of_line n (fun m hm => .of_eq (others m hm) .rfl rfl fun _ => .rfl) hs.nodup ?_
    refine ⟨?_, ?_, ?_, ?_, ?_⟩ <;> rw [own]
    · exact hq.trans h.ringing.symm
    · exact fun k => by rw [h.context]; exact hk k
    · rw [h.context, h.dialogue, hd]
    · exact hx.trans h.signedOn.symm
    · exact h.clearing hc
  · refine hs.inRange.lines.of_line n others ?_
    rw [own]
    exact (hs.inRange.lines n).imp h.missed h.idle
  · by_cases hm : m = n
    · subst hm
      rw [own, h.context, hu.1]
    · rw [others m hm, hu.1]

theorem Keeps.updLine {s : State} {n : LineNo} {f : LineRecord → LineRecord}
    (h : (s.line n).SameCall (f (s.line n))) : Keeps s (s.updLine n f) := Keeps.setLine h

theorem State.updLine_updLine (s : State) (n : LineNo) (f g : LineRecord → LineRecord) :
    (s.updLine n f).updLine n g = s.updLine n fun r => g (f r) := by
  show (s.updLine n f).setLine n (g ((s.updLine n f).line n)) = _
  rw [State.line_updLine_same]
  simp [State.updLine, State.setLine]

theorem Keeps.hangUp (s : State) (n : LineNo) (m : Manner) : Keeps s (s.hangUp n m) :=
  Keeps.updLine .of_eq

theorem Keeps.withdrawAnswer (s : State) (n : LineNo) : Keeps s (s.withdrawAnswer n) :=
  Keeps.updLine .of_eq

theorem Keeps.give (s : State) (e : Notice) : Keeps s (s.give e) := Keeps.of_frame (s.frame_give e)

/-! ## A line leaving the answer queue, and one joining it -/

/-- A line that is in no dialogue and no session leaves the answer queue for a state that is none of
these. -/
theorem Keeps.leaveQueue {s : State} {n : LineNo} {r : LineRecord}
    (hd : (s.line n).state.inDialogue = false) (hx : (s.line n).state ≠ .signedOn)
    (hd' : r.state.inDialogue = false) (hx' : r.state ≠ .signedOn) (hq' : r.state ≠ .ringing)
    (hc : r.context = (s.line n).context)
    (hcl : ((s.line n).clearing.isSome = true ↔ (s.line n).state = .clearing) →
      (r.clearing.isSome = true ↔ r.state = .clearing))
    (hm : (s.line n).missed ≤ 15 → r.missed ≤ 15) (hi : (s.line n).idle ≤ 120 → r.idle ≤ 120) :
    Keeps s ((s.leaveQueue n).setLine n r) := by
  have frame : SameBut [.lines, .answerQueue] s ((s.leaveQueue n).setLine n r) :=
    (s.frame_leaveQueue n).step (State.frame_setLine _ n r)
  have hlines : ((s.leaveQueue n).setLine n r).lines = s.lines.set n r := by simp
  have others := State.otherLines_of_lines hlines
  have own := State.line_of_lines hlines
  have queue : ((s.leaveQueue n).setLine n r).answerQueue = s.answerQueue.filter (· != n) := rfl
  refine Keeps.of_frame frame (links := fun _ hs => ?_) (lines := fun _ hs => ?_)
    (unanswered := fun _ _ _ hu => ⟨fun m => ?_, hu.2⟩)
  · obtain ⟨-, hk, hd1, hx1, hc1⟩ := hs.line n
    refine hs.of_line n (fun m hm => .of_eq (others m hm) (by simp [hm]) rfl fun _ => .rfl)
      (queue ▸ hs.nodup.filter _) ⟨?_, ?_, ?_, ?_, ?_⟩
    · simp [own, hq']
    · rw [own, hc]
      exact hk
    · rw [own, hc, hd1, hd, hd']
    · rw [own]
      exact (hx1.trans (iff_of_false hx hx'))
    · rw [own]
      exact hcl hc1
  · refine hs.inRange.lines.of_line n others ?_
    rw [own]
    exact (hs.inRange.lines n).imp hm hi
  · by_cases hm : m = n
    · subst hm
      rw [own, hc, hu.1]
    · rw [others m hm, hu.1]

/-- A line RINGING at the tail of the answer queue, its ring-gone timer started (R25). -/
def State.queued (s : State) (n : LineNo) : State :=
  State.updLine { s with answerQueue := s.answerQueue ++ [n] } n
    fun r => { r with state := .ringing, ringGone := some s.ringGoneTicks }

/-- A ring arrival is the queueing of the line and a grant evaluation (R25). -/
theorem State.ringArrival_eq (s : State) (n : LineNo) :
    s.ringArrival n = (s.queued n).evaluateGrants := rfl

theorem State.frame_queued (s : State) (n : LineNo) :
    SameBut [.lines, .answerQueue] s (s.queued n) := by
  refine SameBut.step ?_ (State.frame_updLine _ n _)
  intro b hb; cases b <;> first | exact absurd (by decide) hb | simp [Block.same]

theorem Keeps.queued {s : State} {n : LineNo} (hst : (s.line n).state = .idle) :
    Keeps s (s.queued n) := by
  have hlines : (s.queued n).lines =
      s.lines.set n { s.line n with state := .ringing, ringGone := some s.ringGoneTicks } := rfl
  have others := State.otherLines_of_lines hlines
  have own := State.line_of_lines hlines
  have queue : (s.queued n).answerQueue = s.answerQueue ++ [n] := rfl
  refine Keeps.of_frame (s.frame_queued n) (links := fun _ hs => ?_) (lines := fun _ hs => ?_)
    (unanswered := fun _ _ _ hu => ⟨fun m => ?_, hu.2⟩)
  · obtain ⟨hq, hk, hd, hx, hc⟩ := hs.line n
    simp only [hst, reduceCtorEq, iff_false] at hq hx hc
    refine hs.of_line n (fun m hm => .of_eq (others m hm) (by simp [queue, hm]) rfl fun _ => .rfl)
      ?_ ⟨?_, ?_, ?_, ?_, ?_⟩
    · rw [queue]
      exact List.nodup_append.mpr ⟨hs.nodup, List.nodup_singleton n, by
        intro a ha b hb h
        rw [List.mem_singleton] at hb
        exact hq (hb ▸ h ▸ ha)⟩
    · simp [queue, own]
    · rw [own]
      exact hk
    · rw [own, hd, hst]
      rfl
    · rw [own]
      exact iff_of_false hx (by simp)
    · rw [own]
      exact iff_of_false hc (by simp)
  · refine hs.inRange.lines.of_line n others ?_
    rw [own]
    exact hs.inRange.lines n
  · by_cases hm : m = n
    · subst hm
      rw [own]
      exact hu.1 m
    · rw [others m hm, hu.1]

end Sys2Proof.Machine
end

section
/-!
SUPPORT. What grants, dialogue clears, acceptances and session closes do and keep.
-/

namespace Sys2Proof.Machine

-- One proof after another: a default `by` argument waits for every earlier proof of the text.
set_option Elab.async false

/-! ## Grants (R29 to R31) -/

/-- What the next grant needs (R29): the plan PLANNED, credit, a FREE context and a queued line whose
record-pending flag is clear. -/
theorem State.nextGrant_some {s : State} {k : CtxNo} {n : LineNo} (h : s.nextGrant = some (k, n)) :
    s.plan.state = .planned ∧ 1 ≤ s.credit ∧ s.freeContext = some k ∧ s.eligibleLine = some n := by
  simp only [State.nextGrant] at h
  split at h
  · rename_i hp
    split at h
    · rename_i k' n' hk hn
      simp only [Option.some.injEq, Prod.mk.injEq] at h
      obtain ⟨rfl, rfl⟩ := h
      exact ⟨hp.1, hp.2, hk, hn⟩
    · simp at h
  · simp at h

theorem State.holder_of_freeContext {s : State} {k : CtxNo} (h : s.freeContext = some k) :
    (s.ctx k).holder = none := by
  simpa using List.find?_some h

theorem State.mem_of_eligibleLine {s : State} {n : LineNo} (h : s.eligibleLine = some n) :
    n ∈ s.answerQueue := List.mem_of_find?_eq_some h

theorem State.lines_reportCreditFall (s : State) (b : Nat) :
    (s.reportCreditFall b).lines = s.lines := s.frame_reportCreditFall b .lines (by decide)

theorem State.contexts_reportCreditFall (s : State) (b : Nat) :
    (s.reportCreditFall b).contexts = s.contexts := s.frame_reportCreditFall b .contexts (by decide)

theorem State.answerQueue_reportCreditFall (s : State) (b : Nat) :
    (s.reportCreditFall b).answerQueue = s.answerQueue :=
  s.frame_reportCreditFall b .answerQueue (by decide)

theorem State.lines_grant (s : State) (k : CtxNo) (n : LineNo) :
    (s.grant k n).lines = s.lines.set n ((s.line n).granted k s.plan.answerTime) := by
  refine (State.lines_reportCreditFall _ _).trans ?_
  simp [State.line, LineRecord.granted]

theorem State.contexts_grant (s : State) (k : CtxNo) (n : LineNo) :
    (s.grant k n).contexts = s.contexts.set k (Context.fresh (some n)) :=
  State.contexts_reportCreditFall _ _

theorem State.answerQueue_grant (s : State) (k : CtxNo) (n : LineNo) :
    (s.grant k n).answerQueue = s.answerQueue.filter (· != n) :=
  State.answerQueue_reportCreditFall _ _

theorem Keeps.grant {s : State} {k : CtxNo} {n : LineNo} (h : s.nextGrant = some (k, n)) :
    Keeps s (s.grant k n) := by
  obtain ⟨hplanned, -, hfree, helig⟩ := State.nextGrant_some h
  have hnone := State.holder_of_freeContext hfree
  have hmem := State.mem_of_eligibleLine helig
  have others := State.otherLines_of_lines (s.lines_grant k n)
  have own := State.line_of_lines (s.lines_grant k n)
  have othersCtx := State.otherContexts_of_contexts (s.contexts_grant k n)
  have ownCtx := State.ctx_of_contexts (s.contexts_grant k n)
  have queue := s.answerQueue_grant k n
  have session := (s.frame_grant k n).session
  refine Keeps.of_frame (s.frame_grant k n) (links := fun _ hs => ?_) (lines := fun _ hs => ?_)
    (contexts := fun _ hs => ?_) (unanswered := fun _ _ hp => absurd hplanned hp)
  · obtain ⟨hq, hk, -, hx, hc⟩ := hs.line n
    have hring := hq.mp hmem
    have holder := @holder_iff_of_ctx s (s.grant k n) k n othersCtx (by simp [hnone])
      (by simp [ownCtx, Context.fresh, eq_comm])
    refine hs.of_line n (fun m hm => .of_eq (others m hm) (by simp [queue, hm]) (session m)
      (holder hm)) (queue ▸ hs.nodup.filter _) ⟨?_, fun j => ?_, ?_, ?_, ?_⟩
    · simp [queue, own, LineRecord.granted]
    · rw [own]
      by_cases hj : j = k
      · subst hj
        simp [ownCtx, LineRecord.granted, Context.fresh]
      · rw [othersCtx j hj, ← hk j]
        have hno : (s.line n).context = none := by
          have hd := (hs.line n).2.2.1
          rw [hring] at hd
          exact Option.not_isSome_iff_eq_none.mp (by simp [hd, LineState.inDialogue])
        simp [LineRecord.granted, hno, Ne.symm hj]
    · simp [own, LineRecord.granted, LineState.inDialogue]
    · rw [session, hx, own, hring]
      simp [LineRecord.granted]
    · rw [own]
      simpa [LineRecord.granted, hring] using hc
  · refine hs.inRange.lines.of_line n others ?_
    rw [own]
    exact hs.inRange.lines n
  · refine hs.inRange.contexts.of_ctx k othersCtx ?_
    simp [ownCtx, Context.inRange, Context.fresh]

theorem Keeps.evaluateGrants (s : State) : Keeps s s.evaluateGrants :=
  State.evaluateGrants_induction (P := Keeps s) (Keeps.refl s) fun _ _ _ h hg => h.trans (Keeps.grant hg)

/-! ## The dialogue clear (R36) -/

/-- A dialogue clear of line n up to the grants it makes room for (R36 steps 1 to 5). -/
def State.dialogueEnded (s : State) (n : LineNo) (reason : RejectReason) (hang : Option Manner) :
    State :=
  ((((s.give (.rejected n reason)).withdrawPrompts n).releaseContext n).hangUpFor n hang).enterClearing n

theorem State.clearDialogue_eq (s : State) (n : LineNo) (reason : RejectReason)
    (hang : Option Manner) :
    s.clearDialogue n reason hang = (s.dialogueEnded n reason hang).evaluateGrants := rfl

theorem State.frame_dialogueEnded (s : State) (n : LineNo) (r : RejectReason) (m : Option Manner) :
    SameBut [.lines, .contexts, .queues, .requests] s (s.dialogueEnded n r m) :=
  (((((s.frame_give _).mono (by decide)).step (State.frame_withdrawPrompts _ n)).step
    (State.frame_releaseContext _ n)).step (State.frame_hangUpFor _ n m)).step
    (State.frame_enterClearing _ n)

/-- The request queue without a context's lookup, where one waits (R53). -/
def State.lookupWithdrawn (s : State) (k : CtxNo) : State :=
  if (s.ctx k).lookup = .queued then s.withdrawLookup k else s

theorem State.frame_lookupWithdrawn (s : State) (k : CtxNo) :
    SameBut [.requests] s (s.lookupWithdrawn k) :=
  SameBut.ite (s.frame_withdrawLookup k) (SameBut.refl _ _)

theorem State.releaseContext_of_context {s : State} {n : LineNo} {k : CtxNo}
    (h : (s.line n).context = some k) :
    s.releaseContext n = ((s.lookupWithdrawn k).updCtx k Context.freed).updLine n
      fun r => { r with context := none } := by
  simp only [State.releaseContext, h]
  rfl

theorem State.lines_hangUpFor (s : State) (n : LineNo) (hang : Option Manner) :
    (s.hangUpFor n hang).lines =
      s.lines.set n { s.line n with forced := slotAfter s.plan.politeLimit (s.line n).forced hang } := by
  cases hang <;> rfl

/-- The record of a line whose dialogue is cleared: in CLEARING without its context (R15, R36). -/
theorem State.lines_dialogueEnded {s : State} {n : LineNo} {k : CtxNo} (reason : RejectReason)
    (hang : Option Manner) (h : (s.line n).context = some k) :
    (s.dialogueEnded n reason hang).lines = s.lines.set n
      { (s.line n).cleared (slotAfter s.plan.politeLimit (s.line n).forced hang) with
        context := none } := by
  have hl := (State.frame_lookupWithdrawn ((s.give (.rejected n reason)).withdrawPrompts n) k)
  have hp : (((s.give (.rejected n reason)).withdrawPrompts n).releaseContext n).plan = s.plan :=
    State.frame_releaseContext _ n .plan (by decide)
  have hr : (((s.give (.rejected n reason)).withdrawPrompts n).releaseContext n).lines =
      s.lines.set n { s.line n with context := none } := by
    rw [State.releaseContext_of_context (by simpa using h)]
    have e : (State.lookupWithdrawn ((s.give (.rejected n reason)).withdrawPrompts n) k).lines
        = s.lines := hl .lines (by decide)
    simp [State.line, e]
  simp only [State.dialogueEnded, State.lines_enterClearing]
  rw [State.line_of_lines (State.lines_hangUpFor _ n hang), State.lines_hangUpFor, hr, hp,
    State.line_of_lines hr]
  simp [LineRecord.toClearing, LineRecord.cleared, Config.clearingTicks]

/-- The context of a dialogue that is cleared is FREE (R36, R40). -/
theorem State.contexts_dialogueEnded {s : State} {n : LineNo} {k : CtxNo} (reason : RejectReason)
    (hang : Option Manner) (h : (s.line n).context = some k) :
    (s.dialogueEnded n reason hang).contexts =
      s.contexts.set k { s.ctx k with holder := none, signOnTime := none } := by
  have hl := (State.frame_lookupWithdrawn ((s.give (.rejected n reason)).withdrawPrompts n) k)
  have e : (State.lookupWithdrawn ((s.give (.rejected n reason)).withdrawPrompts n) k).contexts
      = s.contexts := hl .contexts (by decide)
  have hf := State.frame_hangUpFor (((s.give (.rejected n reason)).withdrawPrompts n).releaseContext n)
    n hang .contexts (by decide)
  refine Eq.trans hf ?_
  rw [State.releaseContext_of_context (by simpa using h)]
  simp [State.ctx, e, Context.freed]

/-- A QUEUED lookup of a dialogue that is cleared leaves the request queue (R53). -/
theorem State.directory_dialogueEnded {s : State} {n : LineNo} {k : CtxNo} (reason : RejectReason)
    (hang : Option Manner) (h : (s.line n).context = some k) :
    (s.dialogueEnded n reason hang).directory = { s.directory with
      queue := if (s.ctx k).lookup = .queued then
        s.directory.queue.filter fun q => !q.isLookupOf k else s.directory.queue } := by
  have e : (s.dialogueEnded n reason hang).directory =
      (State.lookupWithdrawn ((s.give (.rejected n reason)).withdrawPrompts n) k).directory := by
    simp only [State.dialogueEnded]
    rw [State.releaseContext_of_context (k := k) (by simpa using h)]
    cases hang <;> rfl
  rw [e]
  by_cases hq : (s.ctx k).lookup = .queued <;>
    simp [State.lookupWithdrawn, hq]

theorem State.answerQueue_dialogueEnded (s : State) (n : LineNo) (reason : RejectReason)
    (hang : Option Manner) : (s.dialogueEnded n reason hang).answerQueue = s.answerQueue :=
  s.frame_dialogueEnded n reason hang .answerQueue (by decide)

/-- An ill linked part has no links and no ranges to keep. -/
theorem Keeps.of_unlinked {bs : List Block} {s t : State} (frame : SameBut bs s t)
    (h : ¬ WellLinked s) (hs : .slots ∉ bs := by decide) (hf : .fill ∉ bs := by decide) :
    Keeps s t where
  budgets hb := hb.of_slots (frame.slot hs)
  fill hb := hb.of_same (frame _ hf)
  names hb := hb.of_slots (frame.slot hs)
  links hl := absurd hl h
  range hl := absurd hl.linked h

/-- A line in CLEARING that gave up its context keeps the part lawful, whatever the slot for its forced
command and the context's other fields hold (R28, R36). -/
theorem Keeps.released {s t : State} {n : LineNo} {k : CtxNo} {r : LineRecord} {c : Context}
    (frame : SameBut [.lines, .contexts, .queues, .requests] s t)
    (hl : t.lines = s.lines.set n { r with context := none })
    (hk : t.contexts = s.contexts.set k { c with holder := none, signOnTime := none })
    (hst : r.state = .clearing) (hcl : r.clearing.isSome = true)
    (hm : r.missed = (s.line n).missed) (hi : r.idle = (s.line n).idle)
    (hc : (s.ctx k).inRange → (s.ctx k).holder ≠ none → { c with holder := none }.inRange)
    (h : (s.line n).context = some k) : Keeps s t := by
  have others := State.otherLines_of_lines hl
  have own := State.line_of_lines hl
  have othersCtx := State.otherContexts_of_contexts hk
  have ownCtx := State.ctx_of_contexts hk
  have queue : t.answerQueue = s.answerQueue := frame .answerQueue (by decide)
  have session := frame.session
  refine Keeps.of_frame frame (links := fun _ hs => ?_) (lines := fun _ hs => ?_)
    (contexts := fun _ hs => ?_) (unanswered := fun _ _ _ hu => ?_)
  · obtain ⟨hq, hholds, hd, hx, -⟩ := hs.line n
    have hdia : (s.line n).state.inDialogue = true := by rw [← hd, h]; rfl
    have hholder := (hholds k).mp h
    have holder := @holder_iff_of_ctx s t k n othersCtx (by simp [hholder, eq_comm])
      (by simp [ownCtx])
    refine hs.of_line n (fun m hm => .of_eq (others m hm) (by simp [queue]) (session m)
      (holder hm)) (queue ▸ hs.nodup) ⟨?_, fun j => ?_, ?_, ?_, ?_⟩
    · rw [queue, hq, own, hst]
      refine iff_of_false (fun e => ?_) (by simp)
      simp [e, LineState.inDialogue] at hdia
    · rw [own]
      by_cases hj : j = k
      · subst hj
        simp [ownCtx]
      · rw [othersCtx j hj, ← hholds j, h]
        simp [Ne.symm hj]
    · simp [own, hst, LineState.inDialogue]
    · rw [session, hx, own, hst]
      refine iff_of_false (fun e => ?_) (by simp)
      simp [e, LineState.inDialogue] at hdia
    · rw [own]
      simp [hst, hcl]
  · refine hs.inRange.lines.of_line n others ?_
    rw [own, hm, hi]
    exact hs.inRange.lines n
  · refine hs.inRange.contexts.of_ctx k othersCtx ?_
    have hholder := ((hs.linked.line n).2.1 k).mp h
    rw [ownCtx]
    exact hc (hs.inRange.contexts k) (by simp [hholder])
  · exact absurd (hu.1 n) (by simp [h])

theorem LineState.inDialogue_of_context {s : State} (hs : WellLinked s) {n : LineNo}
    (h : (s.line n).state.inDialogue = true) : ∃ k, (s.line n).context = some k :=
  Option.isSome_iff_exists.mp ((hs.line n).2.2.1.trans h)

/-- A dialogue clear keeps a lawful part lawful (R36). -/
theorem Keeps.clearDialogue {s : State} {n : LineNo} (reason : RejectReason) (hang : Option Manner)
    (h : (s.line n).state.inDialogue = true) : Keeps s (s.clearDialogue n reason hang) := by
  by_cases hs : WellLinked s
  · obtain ⟨k, hk⟩ := LineState.inDialogue_of_context hs h
    refine Keeps.trans ?_ (Keeps.evaluateGrants (s.dialogueEnded n reason hang))
    refine Keeps.released (s.frame_dialogueEnded n reason hang)
      (State.lines_dialogueEnded reason hang hk) (State.contexts_dialogueEnded reason hang hk)
      rfl rfl rfl rfl (fun hc _ => ?_) hk
    obtain ⟨hatt, hnoise, hname, hpass, -⟩ := hc
    exact ⟨hatt, hnoise, hname, hpass, by simp⟩
  · exact Keeps.of_unlinked (s.frame_clearDialogue n reason hang) hs

end Sys2Proof.Machine
end

section
/-!
SUPPORT. What the changes of a slot, a context, a session record and the request queue keep, and with them
the opening and the close of a session.
-/

namespace Sys2Proof.Machine

-- One proof after another: a default `by` argument waits for every earlier proof of the text.
set_option Elab.async false

/-! ## Slots -/

theorem BudgetsBalance.of_slot {s t : State} (i : SlotNo) (hs : BudgetsBalance s)
    (others : OtherSlots i s t) (own : ∀ a, t.slot i = some a → a.budget + a.units = a.basis) :
    BudgetsBalance t := by
  intro j a ha
  by_cases hj : j = i
  · exact own a (hj ▸ ha)
  · exact hs j a (others j hj ▸ ha)

theorem NamesUnique.of_slot {s t : State} (i : SlotNo) (hs : NamesUnique s)
    (others : OtherSlots i s t)
    (fresh : ∀ a, t.slot i = some a → ∀ j b, j ≠ i → s.slot j = some b → b.name ≠ a.name) :
    NamesUnique t := by
  intro j l a b ha hb hab
  by_cases hj : j = i <;> by_cases hl : l = i
  · rw [hj, hl]
  · exact absurd hab.symm (fresh a (hj ▸ ha) l b hl (others l hl ▸ hb))
  · exact absurd hab (fresh b (hl ▸ hb) j a hj (others j hj ▸ ha))
  · exact hs j l a b (others j hj ▸ ha) (others l hl ▸ hb) hab

theorem SlotsInRange.of_slot {s t : State} (i : SlotNo) (hs : SlotsInRange s)
    (others : OtherSlots i s t) (census : t.directory.census = s.directory.census)
    (own : ∀ a, t.slot i = some a → a.inRange) : SlotsInRange t := by
  refine ⟨fun j a ha => ?_, census ▸ hs.2⟩
  by_cases hj : j = i
  · exact own a (hj ▸ ha)
  · exact hs.1 j a (others j hj ▸ ha)

theorem State.otherSlots_setSlot (s : State) (i : SlotNo) (a : Option Account) :
    OtherSlots i s (s.setSlot i a) := fun _ hj => s.slot_setSlot_other a hj

/-- A slot emptied, or given an account whose budget balances, whose name no other slot holds and whose
fields are in range. -/
theorem Keeps.setSlot {s : State} {i : SlotNo} {a : Option Account}
    (balance : ∀ b, a = some b → BudgetsBalance s → b.budget + b.units = b.basis)
    (fresh : ∀ b, a = some b → NamesUnique s →
      ∀ j c, j ≠ i → s.slot j = some c → c.name ≠ b.name)
    (range : ∀ b, a = some b → Lawful s → b.inRange) : Keeps s (s.setSlot i a) := by
  have others := s.otherSlots_setSlot i a
  have own := s.slot_setSlot_same i a
  exact Keeps.of_frame (s.frame_setSlot i a)
    (budgets := fun _ hs => hs.of_slot i others fun b hb => balance b (own.symm.trans hb) hs)
    (names := fun _ hs => hs.of_slot i others fun b hb => fresh b (own.symm.trans hb) hs)
    (slots := fun _ hs => hs.inRange.slots.of_slot i others rfl fun b hb =>
      range b (own.symm.trans hb) hs)

/-- An account changed under its name, its budget balanced as before and its fields in range. -/
theorem Keeps.updSlot {s : State} {i : SlotNo} {f : Account → Account}
    (name : ∀ a, s.slot i = some a → (f a).name = a.name)
    (balance : ∀ a, s.slot i = some a → a.budget + a.units = a.basis →
      (f a).budget + (f a).units = (f a).basis)
    (range : ∀ a, s.slot i = some a → Lawful s → a.inRange → (f a).inRange) :
    Keeps s (s.updSlot i f) := by
  refine Keeps.setSlot (fun b hb hs => ?_) (fun b hb hs j c hj hc => ?_) (fun b hb hs => ?_) <;>
    obtain ⟨a, ha, rfl⟩ := Option.map_eq_some_iff.mp hb
  · exact balance a ha (hs i a ha)
  · rw [name a ha]
    exact fun e => hj (hs j i c a hc ha e)
  · exact range a ha hs (hs.inRange.slots.1 i a ha)

/-! ## Contexts -/

/-- A context changed under its holder, its counts in range. -/
theorem Keeps.updCtx {s : State} {k : CtxNo} {f : Context → Context}
    (holder : (f (s.ctx k)).holder = (s.ctx k).holder)
    (range : Lawful s → (s.ctx k).inRange → (f (s.ctx k)).inRange) : Keeps s (s.updCtx k f) := by
  have others : OtherContexts k s (s.updCtx k f) := fun j hj => s.ctx_updCtx_other f hj
  have own := s.ctx_updCtx_same k f
  refine Keeps.of_frame (s.frame_updCtx k f) (links := fun _ hs => ?_) (contexts := fun _ hs => ?_)
  · refine hs.of_same rfl fun m => .of_eq rfl .rfl rfl fun j => ?_
    by_cases hj : j = k
    · rw [hj, own, holder]
    · rw [others j hj]
  · exact hs.inRange.contexts.of_ctx k others (own ▸ range hs (hs.inRange.contexts k))

/-! ## Session records -/

/-- A session record replaced by one in range. -/
theorem Keeps.replaceSession {s : State} {n : LineNo} {x y : Session} (h : s.session n = some x)
    (range : Lawful s → x.inRange → y.inRange) : Keeps s (s.setSession n (some y)) := by
  have others := s.otherSessions_setSession n (some y)
  have own := s.session_setSession_same n (some y)
  refine Keeps.of_frame (s.frame_setSession n (some y)) (links := fun _ hs => ?_)
    (sessions := fun _ hs => ?_)
  · refine hs.of_same rfl fun m => ⟨.rfl, rfl, rfl, rfl, ?_, fun _ => .rfl⟩
    by_cases hm : m = n
    · subst hm
      rw [own, h]
      rfl
    · rw [others m hm]
  · refine hs.inRange.sessions.of_session n others fun z hz => ?_
    rw [own] at hz
    cases hz
    exact range hs (hs.inRange.sessions n x h)

theorem Keeps.updSession {s : State} {n : LineNo} {f : Session → Session}
    (range : ∀ x, s.session n = some x → Lawful s → x.inRange → (f x).inRange) :
    Keeps s (s.updSession n f) := by
  cases h : s.session n with
  | none =>
    have e : s.updSession n f = s.setSession n none := by simp [State.updSession, h]
    rw [e]
    have others := s.otherSessions_setSession n none
    refine Keeps.of_frame (s.frame_setSession n none) (links := fun _ hs => ?_)
      (sessions := fun _ hs => hs.inRange.sessions.of_session n others (by simp))
    refine hs.of_same rfl fun m => .of_eq rfl .rfl ?_ fun _ => .rfl
    by_cases hm : m = n
    · subst hm
      rw [h, State.session_setSession_same]
    · exact others m hm
  | some x =>
    have e : s.updSession n f = s.setSession n (some (f x)) := by simp [State.updSession, h]
    rw [e]
    exact Keeps.replaceSession h (range x h)

/-- A session record changed in its marks and warned flags only. -/
theorem Session.inRange_of_counts {x y : Session} (hm : y.openMinute = x.openMinute := by rfl)
    (hs : y.seconds = x.seconds := by rfl) (hu : y.units = x.units := by rfl)
    (ho : y.overrun = x.overrun := by rfl) (hc : y.charge = x.charge := by rfl)
    (hg : y.grace = x.grace := by rfl) (h : x.inRange) : y.inRange := by
  simpa only [Session.inRange, hm, hs, hu, ho, hc, hg] using h

/-- A session record changed in its grace only. -/
theorem Session.inRange.withGrace {x : Session} {g : Option Grace} (h : x.inRange)
    (hg : ∀ c, g = some c → c.left ≤ 600 ∧ (c.noBudget || c.bandBarred) = true) :
    { x with grace := g }.inRange := by
  obtain ⟨hmin, hsec, hun, hov, hch, -⟩ := h
  exact ⟨hmin, hsec, hun, hov, hch, hg⟩

theorem Session.inRange.grace {x : Session} (h : x.inRange) {c : Grace} (hc : x.grace = some c) :
    c.left ≤ 600 ∧ (c.noBudget || c.bandBarred) = true := h.2.2.2.2.2 c hc

/-! ## Graces (R113) -/

theorem Grace.left_put (c : Grace) (g : GraceReason) (b : Bool) : (c.put g b).left = c.left := by
  cases g <;> rfl

theorem Grace.reason_put (c : Grace) (g : GraceReason) :
    ((c.put g true).noBudget || (c.put g true).bandBarred) = true := by
  cases g <;> simp [Grace.put]

theorem Keeps.addReason (s : State) (n : LineNo) (g : GraceReason) : Keeps s (s.addReason n g) := by
  simp only [State.addReason]
  split
  · exact Keeps.refl s
  · rename_i x hx
    split
    · refine (Keeps.replaceSession hx fun hs h => h.withGrace ?_).trans (Keeps.give _ _)
      rintro c ⟨⟩
      rw [Grace.start, Grace.left_put]
      exact ⟨hs.inRange.plan.2.1, Grace.reason_put _ g⟩
    · rename_i c hc
      refine Keeps.ite (fun _ => Keeps.refl s) fun _ => ?_
      refine (Keeps.replaceSession hx fun hs h => h.withGrace ?_).trans (Keeps.give _ _)
      rintro d ⟨⟩
      rw [Grace.left_put]
      exact ⟨(h.grace hc).1, Grace.reason_put c g⟩

theorem State.updSession_updSession (s : State) (n : LineNo) (f g : Session → Session) :
    (s.updSession n f).updSession n g = s.updSession n fun x => g (f x) := by
  show (s.updSession n f).setSession n (((s.updSession n f).session n).map g) = _
  rw [State.session_updSession_same, Option.map_map]
  simp [State.updSession, State.setSession, Function.comp_def]

/-- What is left of a grace whose set may be empty: a grace in range, if one. -/
theorem Grace.inRange_of_filter {g : Option Grace} {c : Grace}
    (hleft : ∀ d, g = some d → d.left ≤ 600)
    (h : (g.filter fun d => !d.noReason) = some c) :
    c.left ≤ 600 ∧ (c.noBudget || c.bandBarred) = true := by
  obtain ⟨hg, hc⟩ := Option.filter_eq_some_iff.mp h
  refine ⟨hleft c hg, ?_⟩
  simp only [Grace.noReason] at hc
  cases hb : c.noBudget <;> cases hd : c.bandBarred <;> simp_all

theorem Keeps.removeReason (s : State) (n : LineNo) (g : GraceReason) :
    Keeps s (s.removeReason n g) := by
  rw [State.removeReason, State.endEmptyGrace, State.dropReason, State.updSession_updSession]
  refine Keeps.updSession fun x _ _ h => h.withGrace fun c hc => ?_
  refine Grace.inRange_of_filter (fun d hd => ?_) hc
  obtain ⟨e, he, rfl⟩ := Option.map_eq_some_iff.mp hd
  rw [Grace.left_put]
  exact (h.grace he).1

theorem Keeps.judgeReason (s : State) (n : LineNo) (g : GraceReason) (due : Bool) :
    Keeps s (s.judgeReason n g due) :=
  Keeps.ite (fun _ => Keeps.addReason s n g) fun _ => Keeps.removeReason s n g

theorem Keeps.judgeBand (s : State) (n : LineNo) (i : SlotNo) : Keeps s (s.judgeBand n i) := by
  simp only [State.judgeBand]
  split
  · exact Keeps.refl s
  · exact Keeps.refl s
  · exact Keeps.judgeReason s n _ _

/-! ## Opening a session (R55, R109) -/

theorem Keeps.warn (s : State) (n : LineNo) (k : WarningKind) {f : Session → Session}
    (range : ∀ x, x.inRange → (f x).inRange) : Keeps s ((s.give (.warning n k)).updSession n f) :=
  (Keeps.give s _).trans (Keeps.updSession fun x _ _ => range x)

theorem Keeps.judgeLowBudget (s : State) (n : LineNo) (i : SlotNo) :
    Keeps s (s.judgeLowBudget n i) := by
  simp only [State.judgeLowBudget]
  split
  · exact Keeps.refl s
  · exact Keeps.ite (fun _ => Keeps.warn s n _ fun x h => Session.inRange_of_counts (h := h))
      fun _ => Keeps.refl s

theorem Keeps.judgeOpenBand (s : State) (n : LineNo) (i : SlotNo) :
    Keeps s (s.judgeOpenBand n i) := by
  simp only [State.judgeOpenBand]
  split
  · exact Keeps.refl s
  · exact Keeps.ite (fun _ => Keeps.addReason s n _) fun _ => Keeps.refl s

/-- A line in a dialogue gives up its context for a session record (R55, R109). -/
theorem Keeps.signedOn {s : State} {n : LineNo} {k : CtxNo} {x : Session}
    (hst : (s.line n).state.inDialogue = true) (hk : (s.ctx k).holder = some n)
    (hx : Lawful s → x.inRange) :
    Keeps s (((s.updLine n LineRecord.accepted).updCtx k Context.freed).setSession n (some x)) := by
  have frame : SameBut [.lines, .contexts, .sessions] s
      (((s.updLine n LineRecord.accepted).updCtx k Context.freed).setSession n (some x)) :=
    (((s.frame_updLine n _).mono (by decide)).step (State.frame_updCtx _ k _)).step
      (State.frame_setSession _ n _)
  generalize ht : (((s.updLine n LineRecord.accepted).updCtx k Context.freed).setSession n (some x)) = t
    at frame
  have hl : t.lines = s.lines.set n (s.line n).accepted := by rw [← ht]; rfl
  have hc : t.contexts = s.contexts.set k (s.ctx k).freed := by rw [← ht]; rfl
  have others := State.otherLines_of_lines hl
  have own := State.line_of_lines hl
  have othersCtx := State.otherContexts_of_contexts hc
  have ownCtx := State.ctx_of_contexts hc
  have othersSes : OtherSessions n s t := by
    rw [← ht]; exact fun m hm => State.session_setSession_other _ _ hm
  have ownSes : t.session n = some x := by rw [← ht]; exact State.session_setSession_same _ _ _
  have queue : t.answerQueue = s.answerQueue := frame .answerQueue (by decide)
  refine Keeps.of_frame frame (links := fun _ hs => ?_) (lines := fun _ hs => ?_)
    (contexts := fun _ hs => ?_) (sessions := fun _ hs => ?_) (unanswered := fun _ hs _ hu => ?_)
  · obtain ⟨hq, hholds, -, -, hcl⟩ := hs.line n
    have hctx := (hholds k).mpr hk
    have holder := @holder_iff_of_ctx s t k n othersCtx (by simp [hk, eq_comm])
      (by simp [ownCtx, Context.freed])
    refine hs.of_line n (fun m hm => .of_eq (others m hm) (by rw [queue]) (othersSes m hm)
      (holder hm)) (queue ▸ hs.nodup) ⟨?_, fun j => ?_, ?_, ?_, ?_⟩
    · rw [queue, hq, own]
      refine iff_of_false (fun e => ?_) (by simp [LineRecord.accepted])
      simp [e, LineState.inDialogue] at hst
    · rw [own]
      by_cases hj : j = k
      · subst hj
        simp [ownCtx, LineRecord.accepted, Context.freed]
      · rw [othersCtx j hj, ← hholds j, hctx]
        simp [LineRecord.accepted, Ne.symm hj]
    · simp [own, LineRecord.accepted, LineState.inDialogue]
    · simp [ownSes, own, LineRecord.accepted]
    · rw [own]
      refine iff_of_false (fun e => ?_) (by simp [LineRecord.accepted])
      simp [hcl.mp e, LineState.inDialogue] at hst
  · refine hs.inRange.lines.of_line n others ?_
    rw [own]
    exact ⟨(hs.inRange.lines n).1, Nat.zero_le _⟩
  · refine hs.inRange.contexts.of_ctx k othersCtx ?_
    obtain ⟨hatt, hnoise, hname, hpass, -⟩ := hs.inRange.contexts k
    rw [ownCtx]
    exact ⟨hatt, hnoise, hname, hpass, by simp [Context.freed]⟩
  · refine hs.inRange.sessions.of_session n othersSes fun y hy => ?_
    rw [ownSes] at hy
    cases hy
    exact hx hs
  · have hctx := ((hs.line n).2.1 k).mpr hk
    exact absurd (hu.1 n) (by simp [hctx])

theorem State.newSession_inRange {s u : State} (i : SlotNo) (hm : u.meter = s.meter)
    (hs : Lawful s) : (u.newSession i).inRange := by
  refine ⟨?_, by simp [State.newSession], fun b => ?_, by simp [State.newSession],
    by simp [State.newSession], by simp [State.newSession]⟩
  · simp only [State.newSession, hm]
    exact hs.inRange.clock.2.2.1
  · simp [State.newSession]

/-- An acceptance keeps a lawful part lawful, where the slot has room for a session (R55, R72). -/
theorem Keeps.acceptCall {s : State} {k : CtxNo} {n : LineNo} {i : SlotNo}
    (hst : (s.line n).state.inDialogue = true) (hk : (s.ctx k).holder = some n)
    (room : ∀ a, s.slot i = some a → a.openSessions ≠ a.maxSessions) :
    Keeps s (s.acceptCall k n i) := by
  simp only [State.acceptCall, State.openSession]
  have hslot : Keeps s (s.updSlot i fun a =>
      { a with openSessions := a.openSessions + 1, failures := 0 }) := by
    refine Keeps.updSlot (fun a _ => rfl) (fun a _ h => h) fun a ha _ h => ?_
    obtain ⟨h1, h2, h3, h4, h5, h6, h7, h8, h9, -, h11⟩ := h
    have := room a ha
    exact ⟨h1, h2, h3, h4, h5, h6, h7, h8, by dsimp only; omega, Nat.zero_le _, h11⟩
  refine hslot.trans (Keeps.trans (Keeps.signedOn hst hk (State.newSession_inRange i rfl)) ?_)
  refine (Keeps.judgeLowBudget _ n i).trans ((Keeps.judgeOpenBand _ n i).trans ?_)
  exact (Keeps.give _ _).trans ((Keeps.of_frame (State.frame_withdrawPrompts _ n)).trans
    (Keeps.evaluateGrants _))

/-! ## The close (R118) -/

/-- A line with a session gives it up for CLEARING. -/
theorem Keeps.sessionEnded {s : State} {n : LineNo} {r : LineRecord} {x : Session}
    (hx : s.session n = some x) (hst : r.state = .clearing) (hcl : r.clearing.isSome = true)
    (hctx : r.context = (s.line n).context) (hm : r.missed = (s.line n).missed)
    (hi : r.idle = (s.line n).idle) : Keeps s ((s.setSession n none).setLine n r) := by
  have frame : SameBut [.lines, .sessions] s ((s.setSession n none).setLine n r) :=
    ((s.frame_setSession n none).mono (by decide)).step (State.frame_setLine _ n r)
  have others : OtherLines n s ((s.setSession n none).setLine n r) :=
    State.otherLines_of_lines (r := r) rfl
  have own : ((s.setSession n none).setLine n r).line n = r := State.line_setLine_same _ _ _
  have othersSes : OtherSessions n s ((s.setSession n none).setLine n r) :=
    s.otherSessions_setSession n none
  have ownSes : ((s.setSession n none).setLine n r).session n = none :=
    s.session_setSession_same n none
  refine Keeps.of_frame frame (links := fun _ hs => ?_) (lines := fun _ hs => ?_)
    (sessions := fun _ hs => ?_) (unanswered := fun _ _ _ hu => ⟨fun m => ?_, hu.2⟩)
  · obtain ⟨hq, hholds, hd, hses, -⟩ := hs.line n
    have hon : (s.line n).state = .signedOn := hses.mp (by simp [hx])
    refine hs.of_line n (fun m hm => .of_eq (others m hm) .rfl (othersSes m hm) fun _ => .rfl)
      hs.nodup ⟨?_, ?_, ?_, ?_, ?_⟩
    · rw [own, hst]
      refine iff_of_false (fun e => ?_) (by simp)
      simpa [hon] using hq.mp e
    · rw [own, hctx]
      exact hholds
    · rw [own, hctx, hst, hd, hon]
      rfl
    · rw [ownSes, own, hst]
      simp
    · rw [own]
      simp [hst, hcl]
  · refine hs.inRange.lines.of_line n others ?_
    rw [own, hm, hi]
    exact hs.inRange.lines n
  · exact hs.inRange.sessions.of_session n othersSes (by simp [ownSes])
  · by_cases hmn : m = n
    · subst hmn
      rw [own, hctx, hu.1]
    · rw [others m hmn, hu.1]

/-- A session close keeps a lawful part lawful (R118). -/
theorem Keeps.closeSession (s : State) (n : LineNo) (reason : CloseReason) (hang : Option Manner) :
    Keeps s (s.closeSession n reason hang) := by
  simp only [State.closeSession]
  split
  · exact Keeps.refl s
  · rename_i x hx
    refine (Keeps.of_frame (s.frame_queueRecord (s.buildRecord n x reason))).trans ?_
    refine (Keeps.updLine (n := n) (f := fun r => { r with recordPending := true }) .of_eq).trans ?_
    refine Keeps.trans (Keeps.updSlot (i := x.slot)
      (f := fun a => { a with openSessions := a.openSessions - 1 }) (fun _ _ => rfl)
      (fun _ _ h => h) fun a _ _ h => ?_) ?_
    · obtain ⟨h1, h2, h3, h4, h5, h6, h7, h8, h9, h10⟩ := h
      exact ⟨h1, h2, h3, h4, h5, h6, h7, h8, (Nat.sub_le _ _).trans h9, h10⟩
    refine (Keeps.give _ (.closed n reason)).trans ?_
    cases hang with
    | none => exact Keeps.sessionEnded (x := x) (by simpa using hx) rfl rfl rfl rfl rfl
    | some m =>
      simp only [State.enterClearing, State.hangUp, State.updLine_updLine]
      exact Keeps.sessionEnded (x := x) (by simpa using hx) rfl rfl rfl rfl rfl

end Sys2Proof.Machine
end

section
/-!
SUPPORT. What the directory's operations keep: the request queue, lookups, commits and the census.
-/

namespace Sys2Proof.Machine

-- One proof after another: a default `by` argument waits for every earlier proof of the text.
set_option Elab.async false

/-! ## The request queue (R69, R70) -/

/-- The request queue changed, with no lookup in it that an unanswered part has not. -/
theorem Keeps.requests {s t : State} (frame : SameBut [.requests] s t)
    (h : WellLinked s → Unanswered s → (∀ q ∈ t.directory.queue, q.isCommit = true)
      ∧ ∀ q, t.directory.inService = some q → q.isCommit = true) : Keeps s t :=
  Keeps.of_frame frame (unanswered := fun _ hs _ hu =>
    ⟨fun n => by rw [frame.line (by decide)]; exact hu.1 n, h hs hu⟩)

theorem Keeps.setLookup (s : State) (k : CtxNo) (x : LookupState) :
    Keeps s (s.updCtx k fun c => { c with lookup := x }) :=
  Keeps.updCtx rfl fun _ h => h

theorem Keeps.startService (s : State) : Keeps s s.startService := by
  simp only [State.startService]
  split
  · rename_i q rest hserv hqueue
    have taken : Keeps s
        { s with directory := { s.directory with queue := rest, inService := some q } } := by
      refine Keeps.requests ?_ fun _ hu => ⟨fun p hp => ?_, fun p hp => ?_⟩
      · intro b hb; cases b <;> first | exact absurd (by decide) hb | simp [Block.same]
      · exact hu.2.1 p (hqueue ▸ List.mem_cons_of_mem q hp)
      · cases hp
        exact hu.2.1 q (hqueue ▸ List.mem_cons_self)
    refine taken.trans ?_
    simp only [State.markInService]
    split
    · exact Keeps.refl _
    · exact Keeps.ite (fun _ => Keeps.setLookup _ _ _) fun _ => Keeps.refl _
  · exact Keeps.refl s

/-- A commit, or the lookup of a line that holds a context, joins the request queue. -/
theorem Keeps.submit {s : State} {q : Request}
    (h : q.isCommit = true ∨ ∃ n, (s.line n).context ≠ none) : Keeps s (s.submit q) := by
  simp only [State.submit]
  refine Keeps.trans (Keeps.requests ?_ fun _ hu => ⟨fun p hp => ?_, fun p hp => ?_⟩)
    (Keeps.startService _)
  · intro b hb; cases b <;> first | exact absurd (by decide) hb | simp [Block.same]
  · rcases List.mem_append.mp hp with hp | hp
    · exact hu.2.1 p hp
    · rw [List.mem_singleton.mp hp]
      exact h.resolve_right fun ⟨n, hn⟩ => hn (hu.1 n)
  · exact hu.2.2 p hp

theorem Keeps.serviceEnded (s : State) :
    Keeps s { s with directory := { s.directory with inService := none } } :=
  Keeps.requests (s.frame_inService none) fun _ hu => ⟨hu.2.1, by simp⟩

/-! ## Searching the slots (R66) -/

theorem searchSlots_eq_none {p : Nat → Option Account → Bool} {l : List (Option Account)} {i : Nat} :
    searchSlots p i l = none ↔ ∀ j (h : j < l.length), p (i + j) l[j] = false := by
  induction l generalizing i with
  | nil => simp [searchSlots]
  | cons a rest ih =>
    simp only [searchSlots]
    constructor
    · intro h j hj
      split at h
      · simp at h
      · rename_i ha
        cases j with
        | zero => simpa using ha
        | succ j =>
          have := ih.mp h j (by simpa using hj)
          rw [show i + (j + 1) = i + 1 + j by omega]
          simpa using this
    · intro h
      have h0 := h 0 (by simp)
      rw [if_neg (by simpa using h0)]
      refine ih.mpr fun j hj => ?_
      rw [show i + 1 + j = i + (j + 1) by omega]
      have := h (j + 1) (by simpa using hj)
      rwa [List.getElem_cons_succ] at this

theorem searchSlots_some_lt {p : Nat → Option Account → Bool} {l : List (Option Account)} {i k : Nat}
    (h : searchSlots p i l = some k) : k < i + l.length := by
  induction l generalizing i with
  | nil => simp [searchSlots] at h
  | cons a rest ih =>
    simp only [searchSlots] at h
    split at h
    · cases h
      simp
    · have := ih h
      simp only [List.length_cons]
      omega

/-- No slot is found exactly where none meets the condition. -/
theorem State.findSlot_eq_none {s : State} {p : Nat → Option Account → Bool} :
    s.findSlot p = none ↔ ∀ j : SlotNo, p j.val (s.slot j) = false := by
  have hlen : s.directory.slots.toList.length = 2048 := by simp
  have key : s.findSlot p = none ↔ searchSlots p 0 s.directory.slots.toList = none := by
    simp only [State.findSlot]
    split
    · rename_i i hi
      have hlt := searchSlots_some_lt hi
      rw [dif_pos (by omega)]
      simp [hi]
    · simp [*]
  rw [key, searchSlots_eq_none]
  constructor
  · intro h j
    have := h j.val (by rw [hlen]; exact j.isLt)
    simpa [State.slot] using this
  · intro h j hj
    have := h ⟨j, by omega⟩
    simpa [State.slot] using this

/-- R90's check 5: a name that is not taken stands in no other slot. -/
theorem State.name_ne_of_not_taken {s : State} {i : SlotNo} {name : List Byte}
    (h : s.nameTaken i name = false) {j : SlotNo} {a : Account} (hj : j ≠ i)
    (ha : s.slot j = some a) : a.name ≠ name := by
  have hn := State.findSlot_eq_none.mp (Option.not_isSome_iff_eq_none.mp (Bool.eq_false_iff.mp h)) j
  simpa [ha, Fin.val_inj, hj] using hn

/-! ## Lookups (R72 to R74) -/

/-- A line in a dialogue moved on inside it. -/
theorem LineRecord.SameCall.of_dialogue {old r : LineRecord} (ho : old.state.inDialogue = true)
    (hr : r.state.inDialogue = true) (context : r.context = old.context := by rfl)
    (clearing : r.clearing = old.clearing := by rfl) (missed : r.missed = old.missed := by rfl)
    (idle : r.idle = old.idle := by rfl) : old.SameCall r := by
  have not : ∀ x : LineState, x.inDialogue = true → x ≠ .ringing ∧ x ≠ .signedOn ∧ x ≠ .clearing := by
    intro x
    cases x <;> simp [LineState.inDialogue]
  obtain ⟨ho1, ho2, ho3⟩ := not _ ho
  obtain ⟨hr1, hr2, hr3⟩ := not _ hr
  constructor
  · exact context
  · rw [ho, hr]
  · exact iff_of_false hr1 ho1
  · exact iff_of_false hr2 ho2
  · intro h
    rw [clearing]
    exact h.trans (iff_of_false ho3 hr3)
  · rw [missed]; exact id
  · rw [idle]; exact id

theorem Keeps.rejectAttempt {s : State} {k : CtxNo} {n : LineNo} (reason : RejectReason)
    (hst : (s.line n).state.inDialogue = true) : Keeps s (s.rejectAttempt k n reason) := by
  refine Keeps.ite (fun hatt => ?_) fun _ => Keeps.clearDialogue _ _ hst
  have back : Keeps (s.updCtx k Context.rejected)
      ((s.updCtx k Context.rejected).updLine n fun r => { r with state := .name }) :=
    Keeps.updLine (.of_dialogue hst rfl)
  refine Keeps.trans (Keeps.updCtx (f := Context.rejected) rfl fun _ h => ?_)
    (back.trans (Keeps.give _ _))
  obtain ⟨-, hnoise, -, -, hheld⟩ := h
  exact ⟨hatt, hnoise, by simp [Context.rejected], by simp [Context.rejected], hheld⟩

/-- A lookup is accepted only where its slot has room for a session (R72 check 5). -/
theorem State.room_of_accept {s : State} {name : List Byte} {check : Word} {long : Bool} {i : SlotNo}
    (h : s.lookupOutcome name check long = (.accept, some i)) {a : Account} (ha : s.slot i = some a) :
    a.openSessions ≠ a.maxSessions := by
  simp only [State.lookupOutcome] at h
  split at h
  · simp at h
  · split at h
    · simp at h
    · rename_i j _ b hb
      simp only [Prod.mk.injEq, Option.some.injEq] at h
      obtain ⟨hj, rfl⟩ := h
      rw [ha] at hb
      cases hb
      intro he
      simp only [State.judgeAccount, if_pos he] at hj
      split at hj <;> try simp at hj
      split at hj <;> try simp at hj
      split at hj <;> simp at hj

theorem Keeps.applyOutcome {s : State} {k : CtxNo} {n : LineNo} {o : LookupOutcome}
    {i : Option SlotNo}
    (room : ∀ j a, o = .accept → i = some j → s.slot j = some a → a.openSessions ≠ a.maxSessions) :
    Keeps s (s.applyOutcome k n o i) := by
  refine Keeps.ite (fun h => ?_) fun _ => Keeps.refl s
  simp only [State.completionApplies, Bool.and_eq_true, beq_iff_eq] at h
  obtain ⟨⟨hk, hst⟩, -⟩ := h
  have hdia : ((s.endLookup k).line n).state.inDialogue = true := by
    simp [State.endLookup, hst, LineState.inDialogue]
  refine (Keeps.setLookup s k .none).trans ?_
  split
  · rename_i j
    refine Keeps.acceptCall hdia (k := k) (by simpa using hk) fun a ha => room j a rfl rfl ?_
    simpa using ha
  · exact Keeps.refl _
  · exact Keeps.rejectAttempt _ hdia

/-- A counted failure locks an account for the plan's lockout time, which no lookup finds at 0 (R74). -/
theorem Account.countFailure_inRange {a : Account} (threshold : Nat) {minutes : Nat}
    (hm : 1 ≤ minutes ∧ minutes ≤ 1440) (h : a.inRange) :
    (a.countFailure threshold minutes).inRange := by
  obtain ⟨h1, h2, h3, h4, h5, h6, h7, h8, h9, -, h11⟩ := h
  refine ⟨h1, h2, h3, h4, h5, h6, h7, h8, h9, Nat.min_le_right _ _, fun m hl => ?_⟩
  simp only [Account.countFailure] at hl
  split at hl
  · cases hl
    exact hm
  · exact h11 m hl

theorem Keeps.lookupOwnEffect {s : State} {name : List Byte} {check : Word} {long : Bool} {k : CtxNo}
    {n : LineNo} (h : s.directory.inService = some (.lookup name check long k n)) (o : LookupOutcome)
    (i : Option SlotNo) : Keeps s (s.lookupOwnEffect o i) := by
  simp only [State.lookupOwnEffect]
  split
  · refine Keeps.updSlot (fun _ _ => rfl) (fun _ _ hb => hb) fun a _ hs ha => ?_
    refine a.countFailure_inRange _ ⟨?_, hs.inRange.plan.1⟩ ha
    by_contra h0
    obtain ⟨-, -, -, -, hno⟩ := hs.inRange.plan.2.2.2 (by omega)
    exact absurd (hno _ h) (by simp [Request.isCommit])
  · exact Keeps.refl s

theorem Keeps.lookupCompleted (s : State) : Keeps s s.lookupCompleted := by
  simp only [State.lookupCompleted]
  split
  · rename_i name check long k n hserv
    generalize ho : State.lookupOutcome { s with directory := { s.directory with inService := none } }
      name check long = o
    have own : Keeps s (State.lookupOwnEffect
        { s with directory := { s.directory with inService := none } } o.1 o.2) := by
      have e : State.lookupOwnEffect
          { s with directory := { s.directory with inService := none } } o.1 o.2 =
          { s.lookupOwnEffect o.1 o.2 with directory :=
            { (s.lookupOwnEffect o.1 o.2).directory with inService := none } } := by
        simp only [State.lookupOwnEffect]
        split <;> rfl
      rw [e]
      exact (Keeps.lookupOwnEffect hserv o.1 o.2).trans (Keeps.serviceEnded _)
    refine own.trans ((Keeps.applyOutcome fun j a hacc hj ha => ?_).trans (Keeps.startService _))
    obtain ⟨o1, o2⟩ := o
    subst hacc hj
    exact State.room_of_accept ho ha
  · exact Keeps.refl s
  · exact Keeps.refl s

/-! ## The census (R80 to R82) -/

theorem Keeps.setCensus {s : State} {c : Census} (h : c.cursor ≤ 2048) : Keeps s (s.setCensus c) :=
  Keeps.of_frame (s.frame_setCensus c) (slots := fun _ hs => ⟨hs.inRange.slots.1, h⟩)

theorem Keeps.readCensus (s : State) : Keeps s s.readCensus.2 := by
  simp only [State.readCensus]
  split
  · split
    · split
      · exact Keeps.setCensus (Fin.isLt _)
      · exact Keeps.refl s
    · refine Keeps.of_frame (s.frame_setCensus _) (slots := fun _ hs => hs.inRange.slots)
  · exact Keeps.refl s

/-! ## Commits (R90 to R95) -/

theorem field_lt (w : Word) (lo len : Nat) : field w lo len < 2 ^ len := BitVec.isLt _

theorem Staged.name_length {r : Staged} (h : r.nameOk = true) :
    1 ≤ r.name.length ∧ r.name.length ≤ 12 := by
  simp only [Staged.nameOk, Bool.and_eq_true, Bool.not_eq_true', List.isEmpty_eq_false_iff] at h
  refine ⟨List.length_pos_iff.mpr h.1.1, ?_⟩
  have h12 : r.nameBytes.length = 12 := rfl
  exact h12 ▸ (List.takeWhile_sublist _).length_le

theorem Staged.budget_le (r : Staged) : r.budget ≤ 65535 := by
  have := (r.word 10).isLt
  simp only [Staged.budget]
  omega

theorem Staged.maxSessions_range {r : Staged} (h : r.maxSessionsOk = true) :
    1 ≤ r.maxSessions ∧ r.maxSessions ≤ 4 := by
  simpa [Staged.maxSessionsOk] using h

theorem State.loadedAccount_inRange {s : State} {r : Staged} (h : r.loadFieldsOk = true) :
    (s.loadedAccount r).inRange := by
  simp only [Staged.loadFieldsOk, Bool.and_eq_true, bne_iff_ne, ne_eq] at h
  obtain ⟨⟨⟨hname, -⟩, hmax⟩, hnum⟩ := h
  obtain ⟨h1, h2⟩ := Staged.name_length hname
  obtain ⟨h3, h4⟩ := Staged.maxSessions_range hmax
  exact ⟨h1, h2, hnum, r.budget_le, r.budget_le, Nat.zero_le _, h3, h4, Nat.zero_le _, Nat.zero_le _,
    by simp [State.loadedAccount]⟩

/-- A property of an account that a flagged change keeps. -/
theorem Account.when_induction {P : Account → Prop} {a : Account} {flag : Bool}
    {f : Account → Account} (h : P a) (hf : flag = true → P a → P (f a)) : P (a.when flag f) := by
  cases flag
  · exact h
  · exact hf rfl h

/-- A property that each of R93's flagged changes keeps is kept by an ALTER. -/
theorem State.alteredAccount_induction {P : Account → Prop} (s : State) {r : Staged} {a : Account}
    (h : P a) (hname : r.flagName = true → ∀ a, P a → P { a with name := r.name })
    (hcheck : ∀ a, P a → P { a with check := r.check })
    (hcls : ∀ a, P a → P { a with cls := r.cls.getD a.cls })
    (hbudget : ∀ a, P a → P { a with budget := r.budget, basis := r.budget, units := 0,
                                     alarm := s.alarmFor r.budget })
    (hmax : r.flagMaxSess = true → ∀ a, P a → P { a with maxSessions := r.maxSessions })
    (hnum : r.flagAccount = true → ∀ a, P a → P { a with number := r.number })
    (hunlock : ∀ a, P a → P { a with lock := .none, failures := 0 })
    (hlock : ∀ a, P a → P { a with lock := .held }) : P (s.alteredAccount r a) := by
  simp only [State.alteredAccount]
  iterate 8 refine Account.when_induction (P := P) ?_ ?_
  · exact h
  · exact fun hf => hname hf _
  · exact fun _ => hcheck _
  · exact fun _ => hcls _
  · exact fun _ => hbudget _
  · exact fun hf => hmax hf _
  · exact fun hf => hnum hf _
  · exact fun _ => hunlock _
  · exact fun _ => hlock _

theorem State.alteredAccount_balanced {s : State} {r : Staged} {a : Account}
    (h : a.budget + a.units = a.basis) :
    (s.alteredAccount r a).budget + (s.alteredAccount r a).units = (s.alteredAccount r a).basis :=
  s.alteredAccount_induction (P := fun a => a.budget + a.units = a.basis) h (fun _ _ h => h)
    (fun _ h => h) (fun _ h => h) (fun _ _ => rfl) (fun _ _ h => h) (fun _ _ h => h) (fun _ h => h)
    fun _ h => h

/-- An altered account has its old name, or the record's where NAME is flagged. -/
theorem State.alteredAccount_name (s : State) (r : Staged) (a : Account) :
    (s.alteredAccount r a).name = a.name
      ∨ r.flagName = true ∧ (s.alteredAccount r a).name = r.name :=
  s.alteredAccount_induction (P := fun b => b.name = a.name ∨ r.flagName = true ∧ b.name = r.name)
    (.inl rfl) (fun hf _ _ => .inr ⟨hf, rfl⟩) (fun _ h => h) (fun _ h => h) (fun _ h => h)
    (fun _ _ h => h) (fun _ _ h => h) (fun _ h => h) fun _ h => h

theorem State.alteredAccount_inRange {s : State} {r : Staged} {a : Account}
    (hok : r.alterFieldsOk = true) (hopen : r.flagMaxSess = true → a.openSessions ≤ r.maxSessions)
    (h : a.inRange) : (s.alteredAccount r a).inRange := by
  simp only [Staged.alterFieldsOk, Bool.and_eq_true, Bool.or_eq_true, Bool.not_eq_true',
    bne_iff_ne, ne_eq] at hok
  obtain ⟨⟨⟨hname, -⟩, hmax⟩, hnum⟩ := hok
  have key := s.alteredAccount_induction (r := r) (a := a)
    (P := fun b => b.inRange ∧ b.openSessions = a.openSessions) ⟨h, rfl⟩
    (fun hf b hb => ?_) (fun _ h => h) (fun _ h => h) (fun b hb => ?_) (fun hf b hb => ?_)
    (fun hf b hb => ?_) (fun b hb => ?_) (fun b hb => ?_)
  · exact key.1
  all_goals
    obtain ⟨⟨h1, h2, h3, h4, h5, h6, h7, h8, h9, h10, h11⟩, he⟩ := hb
    refine ⟨?_, he⟩
  · obtain ⟨hn1, hn2⟩ := Staged.name_length (hname.resolve_left (by simp [hf]))
    exact ⟨hn1, hn2, h3, h4, h5, h6, h7, h8, h9, h10, h11⟩
  · exact ⟨h1, h2, h3, r.budget_le, r.budget_le, Nat.zero_le _, h7, h8, h9, h10, h11⟩
  · obtain ⟨hm1, hm2⟩ := Staged.maxSessions_range (hmax.resolve_left (by simp [hf]))
    exact ⟨h1, h2, h3, h4, h5, h6, hm1, hm2, he ▸ hopen hf, h10, h11⟩
  · exact ⟨h1, h2, hnum.resolve_left (by simp [hf]), h4, h5, h6, h7, h8, h9, h10, h11⟩
  · exact ⟨h1, h2, h3, h4, h5, h6, h7, h8, h9, Nat.zero_le _, by simp⟩
  · exact ⟨h1, h2, h3, h4, h5, h6, h7, h8, h9, h10, by simp⟩

/-- A grace in which no more seconds are left than the plan allows. -/
def graceBounded (g : Option Grace) : Prop := ∀ c, g = some c → c.left ≤ 600

/-- A reason put in a session's set or taken out of it changes the grace alone, and its seconds not
above the plan's. -/
theorem State.session_putReason_bounded (s : State) {n : LineNo} {x : Session} (g : GraceReason)
    (due : Bool) (h : s.session n = some x) :
    ∃ e, (s.putReason n g due).session n = some { x with grace := e }
      ∧ (s.plan.graceSeconds ≤ 600 → graceBounded x.grace → graceBounded e) := by
  refine ⟨_, s.session_putReason g due h, fun hsec hx c hc => ?_⟩
  cases hg : x.grace with
  | none =>
    simp only [hg] at hc
    split at hc
    · cases hc
      rwa [Grace.start, Grace.left_put]
    · simp at hc
  | some d =>
    simp only [hg] at hc
    cases hc
    rw [Grace.left_put]
    exact hx d hg

theorem State.otherSessions_putReason (s : State) (n : LineNo) (g : GraceReason) (due : Bool) :
    OtherSessions n s (s.putReason n g due) := by
  intro m hm
  simp only [State.putReason, State.addReason, State.dropReason]
  split
  · split
    · rfl
    · split
      · simpa using State.session_setSession_other _ _ hm
      · split
        · rfl
        · simpa using State.session_setSession_other _ _ hm
  · exact State.session_updSession_other _ _ hm

/-- An ALTER's judgements change the session's grace alone, and leave none without a reason (R94). -/
theorem State.session_alignGrace_bounded (s : State) {n : LineNo} {x : Session} (r : Staged)
    (a : Account) (h : s.session n = some x) :
    ∃ e, (s.alignGrace n r a).session n = some { x with grace := e.filter fun c => !c.noReason }
      ∧ (s.plan.graceSeconds ≤ 600 → graceBounded x.grace → graceBounded e) := by
  obtain ⟨e, he, hle⟩ := s.session_putReason_bounded .noBudget a.budgetGone h
  simp only [State.alignGrace, State.endEmptyGrace, State.session_updSession_same]
  split
  · have hp : (s.putReason n .noBudget a.budgetGone).plan = s.plan :=
      s.frame_putReason n _ _ .plan (by decide)
    obtain ⟨d, hd, hld⟩ := State.session_putReason_bounded _ .bandBarred
      ((s.putReason n .noBudget a.budgetGone).bandBars a) he
    exact ⟨d, by rw [hd]; rfl, fun hsec hx => hld (hp ▸ hsec) (hle hsec hx)⟩
  · exact ⟨e, by rw [he]; rfl, hle⟩

theorem State.otherSessions_alignGrace (s : State) (n : LineNo) (r : Staged) (a : Account) :
    OtherSessions n s (s.alignGrace n r a) := by
  intro m hm
  have h1 := s.otherSessions_putReason n .noBudget a.budgetGone m hm
  simp only [State.alignGrace, State.endEmptyGrace]
  rw [State.session_updSession_other _ _ hm]
  split
  · exact (State.otherSessions_putReason _ n _ _ m hm).trans h1
  · exact h1

theorem Keeps.alignGrace {s : State} {n : LineNo} {x : Session} (r : Staged) (a : Account)
    (h : s.session n = some x) : Keeps s (s.alignGrace n r a) := by
  have others := s.otherSessions_alignGrace n r a
  have frame := s.frame_alignGrace n r a
  obtain ⟨e, he, hle⟩ := s.session_alignGrace_bounded r a h
  refine Keeps.of_frame frame (links := fun _ hs => ?_) (sessions := fun _ hs => ?_)
  · have queue : (s.alignGrace n r a).answerQueue = s.answerQueue := frame .answerQueue (by decide)
    refine hs.of_same queue fun m => ⟨by rw [queue], ?_⟩
    simp only [frame.line (by decide), frame.ctx (by decide), true_and, implies_true, and_true]
    by_cases hm : m = n
    · subst hm
      rw [he, h]
      rfl
    · rw [others m hm]
  · have hxr := hs.inRange.sessions n x h
    have hb := hle hs.inRange.plan.2.1 fun c hc => (hxr.grace hc).1
    refine hs.inRange.sessions.of_session n others fun y hy => ?_
    rw [he] at hy
    cases hy
    exact hxr.withGrace fun c hc => Grace.inRange_of_filter hb hc

theorem Keeps.alignGraces (s : State) (r : Staged) (i : SlotNo) : Keeps s (s.alignGraces r i) := by
  refine Keeps.ite (fun _ => Keeps.forSessions (Keeps.refl s) fun n x u hx => ?_) fun _ => Keeps.refl s
  split
  · exact Keeps.refl u
  · exact Keeps.ite (fun _ => Keeps.alignGrace r _ hx) fun _ => Keeps.refl u

/-- R90's checks on a LOAD that is DONE: its fields pass R91 and its name is free. -/
theorem State.load_of_done {s : State} {r : Staged} (hop : r.op = some .load)
    (h : s.commitOutcome r = .done) :
    r.loadFieldsOk = true ∧ s.nameTaken r.target r.name = false := by
  simp only [State.commitOutcome, hop] at h
  split at h
  · simp at h
  · split at h
    · simp at h
    · split at h
      · simp at h
      · simp_all

/-- R90's checks on an ALTER that is DONE. -/
theorem State.alter_of_done {s : State} {r : Staged} (hop : r.op = some .alter)
    (h : s.commitOutcome r = .done) :
    r.alterFieldsOk = true ∧ (r.flagName = true → s.nameTaken r.target r.name = false)
      ∧ (r.flagMaxSess = true → ∀ a, s.slot r.target = some a → a.openSessions ≤ r.maxSessions) := by
  simp only [State.commitOutcome, hop] at h
  split at h
  · simp at h
  · split at h
    · simp at h
    · split at h
      · simp at h
      · split at h
        · simp at h
        · rename_i hslot hfields hname hmax
          refine ⟨by simpa using hfields, by simpa using hname, fun hf a ha => ?_⟩
          simpa [hf, ha, openIn] using hmax

/-- The effects of a DONE commit keep a lawful part lawful (R92 to R95). -/
theorem Keeps.applyCommit {s : State} {r : Staged} (h : s.commitOutcome r = .done) :
    Keeps s (s.applyCommit r) := by
  simp only [State.applyCommit]
  split
  · exact Keeps.refl s
  · rename_i hop
    obtain ⟨hok, hfree⟩ := State.load_of_done hop h
    refine Keeps.setSlot ?_ ?_ ?_ <;> rintro b ⟨⟩
    · exact fun _ => rfl
    · exact fun _ j c hj hc => State.name_ne_of_not_taken hfree hj hc
    · exact fun _ => State.loadedAccount_inRange hok
  · rename_i hop
    obtain ⟨hok, hfree, hmax⟩ := State.alter_of_done hop h
    refine Keeps.trans ?_ (Keeps.alignGraces _ r r.target)
    refine Keeps.setSlot (fun b hb hs => ?_) (fun b hb hs j c hj hc => ?_) (fun b hb hs => ?_) <;>
      obtain ⟨a, ha, rfl⟩ := Option.map_eq_some_iff.mp hb
    · exact State.alteredAccount_balanced (hs _ a ha)
    · rcases s.alteredAccount_name r a with e | ⟨hf, e⟩ <;> rw [e]
      · exact fun e => hj (hs j _ c a hc ha e)
      · exact State.name_ne_of_not_taken (hfree hf) hj hc
    · exact State.alteredAccount_inRange hok (fun hf => hmax hf a ha) (hs.inRange.slots.1 _ a ha)
  · exact Keeps.setSlot (by simp) (by simp) (by simp)

theorem Keeps.commitCompleted (s : State) : Keeps s s.commitCompleted := by
  simp only [State.commitCompleted]
  split
  · refine Keeps.trans ?_ ((Keeps.of_frame (State.frame_setStaging _ _)).trans
      ((Keeps.give _ _).trans (Keeps.startService _)))
    exact Keeps.ite (fun h => (Keeps.serviceEnded s).trans (Keeps.applyCommit h))
      fun _ => Keeps.serviceEnded s
  · exact Keeps.refl s
  · exact Keeps.refl s

theorem Keeps.writeCommit (s : State) (w : Word) : Keeps s (s.writeCommit w) := by
  refine Keeps.ite (fun _ => Keeps.of_frame (s.frame_refuse _ _)) fun _ => Keeps.ite (fun _ => ?_)
    fun _ => Keeps.ite (fun _ => ?_) fun _ => ?_
  · exact (Keeps.of_frame (s.frame_setStaging _)).trans (Keeps.give _ _)
  · exact (Keeps.of_frame (s.frame_setStaging _)).trans (Keeps.give _ _)
  · exact (Keeps.of_frame (s.frame_setStaging _)).trans (Keeps.submit (.inl rfl))

end Sys2Proof.Machine
end

section
/-!
SUPPORT. What ticks, charges, idle checks and the meter's cells keep.
-/

namespace Sys2Proof.Machine

-- One proof after another: a default `by` argument waits for every earlier proof of the text.
set_option Elab.async false

/-! ## The meter's own fields -/

theorem State.frame_setMeter {s : State} {m : Meter} (h : m.sessions = s.meter.sessions) :
    SameBut [.timebase, .clock, .tables, .band] s { s with meter := m } := by
  intro b hb; cases b <;> first | exact absurd (by decide) hb | simp [Block.same, h]

/-- The meter's counts, clock and tables are within their ranges (R100, R102, R104, R106). -/
def Meter.inRange (m : Meter) : Prop :=
  m.shortTicks < 100 ∧ m.secondTicks < 60 ∧ m.minute < 1440 ∧ m.weekday < 7
    ∧ (∀ b, m.bandStart b < 1440)
    ∧ ∀ b v : Fin 4, m.tariffs[(⟨(4 * b.val + v.val) % 16, Nat.mod_lt _ (by decide)⟩ : Fin 16)] ≤ 3600

theorem clockInRange_iff {s : State} : ClockInRange s ↔ s.meter.inRange := Iff.rfl

/-- The meter's own fields changed, its counts, clock and tables in range. -/
theorem Keeps.setMeter {s : State} {m : Meter} (h : m.sessions = s.meter.sessions)
    (range : s.meter.inRange → m.inRange) : Keeps s { s with meter := m } :=
  Keeps.of_frame (State.frame_setMeter h) (clock := fun _ hs => range hs.inRange.clock)

theorem Meter.inRange_countShortTick {m : Meter} (h : m.inRange) : m.countShortTick.inRange := by
  obtain ⟨hshort, hrest⟩ := h
  have hsecond : Config.ticksPerSecond = 100 := rfl
  simp only [Meter.countShortTick]
  split
  · exact ⟨Nat.zero_lt_succ _, hrest⟩
  · exact ⟨by dsimp only; omega, hrest⟩

theorem Meter.inRange_countSecondTick {m : Meter} (h : m.inRange) : m.countSecondTick.inRange := by
  obtain ⟨hshort, hsec, hrest⟩ := h
  simp only [Meter.countSecondTick]
  split
  · exact ⟨hshort, Nat.zero_lt_succ _, hrest⟩
  · exact ⟨hshort, by dsimp only; omega, hrest⟩

theorem Meter.inRange_advanceClock {m : Meter} (h : m.inRange) : m.advanceClock.inRange := by
  obtain ⟨hshort, hsec, hmin, hday, hrest⟩ := h
  simp only [Meter.advanceClock]
  split
  · exact ⟨hshort, hsec, by dsimp only; omega, hday, hrest⟩
  · refine ⟨hshort, hsec, Nat.zero_lt_succ _, ?_, hrest⟩
    dsimp only
    split <;> omega

/-! ## Short ticks (R3, R42, R100) -/

theorem State.line_shortTicked {s : State} (h : s.meter.divisor.isSome = true) (n : LineNo) :
    s.shortTicked.line n = (s.line n).tick := by
  simp [State.shortTicked, h, State.line]

theorem State.ctx_shortTicked {s : State} (h : s.meter.divisor.isSome = true) (k : CtxNo) :
    s.shortTicked.ctx k = (s.ctx k).tick := by
  simp [State.shortTicked, h, State.ctx]

theorem State.meter_shortTicked {s : State} (h : s.meter.divisor.isSome = true) :
    s.shortTicked.meter = s.meter.countShortTick := by
  simp [State.shortTicked, h]

theorem Context.holder_tick (c : Context) : c.tick.holder = c.holder := by
  simp only [Context.tick]; split <;> rfl

theorem Context.inRange_tick {c : Context} (h : c.inRange) : c.tick.inRange := by
  simp only [Context.tick]; split <;> exact h

theorem Keeps.shortTicked (s : State) : Keeps s s.shortTicked := by
  cases hd : s.meter.divisor.isSome with
  | false =>
    rw [State.shortTicked, if_neg (by simp [hd])]
    exact Keeps.refl s
  | true =>
    have frame := s.frame_shortTicked
    have hline := State.line_shortTicked hd
    have hctx := State.ctx_shortTicked hd
    have hmeter := State.meter_shortTicked hd
    refine Keeps.of_frame frame (links := fun _ hs => ?_) (lines := fun _ hs n => ?_)
      (contexts := fun _ hs k => ?_) (clock := fun _ hs => ?_)
      (unanswered := fun _ _ _ hu => ⟨fun n => ?_, ?_⟩)
    · have queue : s.shortTicked.answerQueue = s.answerQueue := frame .answerQueue (by decide)
      refine hs.of_same queue fun m => ⟨by rw [queue], ?_⟩
      simp [hline, hctx, LineRecord.tick, Context.holder_tick, frame.session (by decide)]
    · rw [hline]
      exact hs.inRange.lines n
    · rw [hctx]
      exact Context.inRange_tick (hs.inRange.contexts k)
    · rw [clockInRange_iff, hmeter]
      exact Meter.inRange_countShortTick hs.inRange.clock
    · rw [hline]
      exact hu.1 n
    · have hq : Block.requests.same s s.shortTicked := frame .requests (by decide)
      rw [hq.1, hq.2]
      exact hu.2

/-! ## Charging (R110 to R112) -/

theorem Keeps.judgeThreshold (s : State) (i : SlotNo) : Keeps s (s.judgeThreshold i) := by
  simp only [State.judgeThreshold]
  split
  · exact Keeps.refl s
  · refine Keeps.ite (fun _ => Keeps.forSessions ?_ fun n x u _ => ?_) fun _ => Keeps.refl s
    · exact Keeps.updSlot (fun _ _ => rfl) (fun _ _ h => h) fun _ _ _ h => h
    · exact Keeps.ite (fun _ => Keeps.warn u n _ fun x h => Session.inRange_of_counts (h := h))
        fun _ => Keeps.refl u

theorem Keeps.judgeExhaustion (s : State) (i : SlotNo) : Keeps s (s.judgeExhaustion i) := by
  simp only [State.judgeExhaustion]
  split
  · exact Keeps.refl s
  · refine Keeps.ite (fun _ => Keeps.forSessions (Keeps.refl s) fun n x u _ => ?_) fun _ => Keeps.refl s
    exact Keeps.ite (fun _ => Keeps.addReason u n _) fun _ => Keeps.refl u

theorem countUp_le (n limit : Nat) : countUp n limit ≤ limit := Nat.min_le_right _ _

theorem Session.inRange.countUnit {x : Session} (b : BandNo) (h : x.inRange) :
    (x.countUnit b).inRange := by
  obtain ⟨hmin, hsec, hun, hrest⟩ := h
  refine ⟨hmin, hsec, fun c => ?_, hrest⟩
  by_cases hc : c = b
  · subst hc
    simpa [Session.countUnit, Config.maxCount] using countUp_le x.units[c] 65535
  · simpa [Session.countUnit, Vector.getElem_set, Fin.val_inj, Ne.symm hc] using hun c

/-- A budget unit charged: what leaves the budget joins the units since basis (R78, R111). -/
theorem Keeps.chargedSlot {s : State} {i : SlotNo} {a : Account} (ha : s.slot i = some a)
    (hb : 0 < a.budget) : Keeps s (s.setSlot i (some a.charged)) := by
  refine Keeps.setSlot ?_ ?_ ?_ <;> rintro b ⟨⟩
  · intro hs
    have := hs i a ha
    simp only [Account.charged]
    omega
  · exact fun hs j c hj hc e => hj (hs j i c a hc ha e)
  · intro hs
    have heq := hs.balanced i a ha
    obtain ⟨h1, h2, h3, h4, h5, h6, hrest⟩ := hs.inRange.slots.1 i a ha
    exact ⟨h1, h2, h3, (Nat.sub_le _ _).trans h4, h5, by simp only [Account.charged]; omega, hrest⟩

theorem Keeps.chargeUnit (s : State) (n : LineNo) (i : SlotNo) : Keeps s (s.chargeUnit n i) := by
  simp only [State.chargeUnit]
  split
  · exact Keeps.refl s
  · rename_i a ha
    refine Keeps.ite (fun hb => ?_) fun _ => Keeps.updSession fun x _ _ h => ?_
    · exact (Keeps.chargedSlot ha hb).trans ((Keeps.updSession fun x _ _ h => h.countUnit _).trans
        ((Keeps.judgeThreshold _ i).trans (Keeps.judgeExhaustion _ i)))
    · obtain ⟨hmin, hsec, hun, -, hrest⟩ := h
      exact ⟨hmin, hsec, hun, countUp_le _ _, hrest⟩

/-- The charge counter stays below a rate, which is at most 3600 (R106, R111). -/
theorem Keeps.countCharge {s : State} {n : LineNo} {x : Session} {rate : Nat}
    (hx : ∀ y, s.session n = some y → y.charge = x.charge) (hr : ClockInRange s → rate ≤ 3600) :
    Keeps s (s.countCharge n x rate) := by
  refine Keeps.ite (fun _ => (Keeps.updSession fun y _ _ h => ?_).trans (Keeps.chargeUnit _ n _))
    fun hlt => Keeps.updSession fun y hy hs h => ?_ <;>
    obtain ⟨hmin, hsec, hun, hov, -, hgr⟩ := h
  · exact ⟨hmin, hsec, hun, hov, Nat.zero_le _, hgr⟩
  · have := hx y hy
    have := hr hs.inRange.clock
    exact ⟨hmin, hsec, hun, hov, by dsimp only; omega, hgr⟩

/-! ## Graces and idle minutes (R114, R116) -/

theorem Keeps.graceExpired (s : State) (n : LineNo) : Keeps s (s.graceExpired n) := by
  simp only [State.graceExpired]
  split
  · exact Keeps.refl s
  · split
    · exact Keeps.refl s
    · exact Keeps.ite (fun _ => Keeps.closeSession s n _ _) fun _ => Keeps.refl s

theorem Keeps.runGrace (s : State) (n : LineNo) : Keeps s (s.runGrace n) := by
  refine (Keeps.updSession fun x _ _ h => h.withGrace fun c hc => ?_).trans (Keeps.graceExpired _ n)
  obtain ⟨d, hd, rfl⟩ := Option.map_eq_some_iff.mp hc
  exact (h.grace hd).imp_left (Nat.sub_le _ _).trans

theorem Keeps.visitSecond {s : State} (running : Bool) {n : LineNo} {x : Session}
    (hx : s.session n = some x) : Keeps s (s.visitSecond running n x) := by
  have counted : Keeps s
      (s.updSession n fun x => { x with seconds := countUp x.seconds Config.maxSeconds }) := by
    refine Keeps.updSession fun y _ _ h => ?_
    obtain ⟨hmin, -, hrest⟩ := h
    exact ⟨hmin, countUp_le _ _, hrest⟩
  simp only [State.visitSecond]
  split
  · exact counted
  · exact counted
  · refine Keeps.ite (fun _ => counted) fun _ => ?_
    have charged : ∀ {u : State} {b : BandNo} {v : SpeedNo},
        (∀ y, u.session n = some y → y.charge = x.charge) →
        Keeps u (u.countCharge n x (u.rate b v)) :=
      fun hu => Keeps.countCharge hu fun hc => hc.2.2.2.2.2 _ _
    have same : ∀ y, (s.updSession n fun x =>
        { x with seconds := countUp x.seconds Config.maxSeconds }).session n = some y →
        y.charge = x.charge := by
      intro y hy
      rw [State.session_updSession_same, hx] at hy
      cases hy
      rfl
    exact Keeps.ite (fun _ => counted.trans ((charged same).trans (Keeps.runGrace _ n)))
      fun _ => counted.trans (charged same)

theorem Keeps.secondTicked (s : State) : Keeps s s.secondTicked := by
  refine Keeps.ite (fun _ => Keeps.forSessions (Keeps.setMeter ?_ Meter.inRange_countSecondTick)
    fun n x u hx => Keeps.visitSecond _ hx) fun _ => Keeps.refl s
  simp only [Meter.countSecondTick]
  split <;> rfl

theorem Keeps.idleExpired (s : State) (n : LineNo) : Keeps s (s.idleExpired n) := by
  simp only [State.idleExpired]
  split
  · exact Keeps.refl s
  · split
    · exact Keeps.refl s
    · exact Keeps.refl s
    · exact Keeps.ite (fun _ => Keeps.closeSession s n _ _) fun _ => Keeps.refl s

theorem LineRecord.idleAfter_le (r : LineRecord) : r.idleAfter ≤ 120 := by
  simp only [LineRecord.idleAfter]
  split
  · exact Nat.zero_le _
  · exact countUp_le _ _

theorem Keeps.idleCheck (s : State) (n : LineNo) (x : Session) : Keeps s (s.idleCheck n x) := by
  simp only [State.idleCheck]
  split
  · exact Keeps.refl s
  · exact Keeps.refl s
  · have counted : Keeps s (s.updLine n fun r => { r with idle := r.idleAfter, activity := false }) :=
      Keeps.updLine ⟨rfl, rfl, .rfl, .rfl, id, id, fun _ => LineRecord.idleAfter_le _⟩
    refine Keeps.trans (Keeps.ite (fun _ => counted.trans ?_) fun _ => counted)
      (Keeps.idleExpired _ n)
    exact Keeps.warn _ n _ fun x h => Session.inRange_of_counts (h := h)

/-! ## The clock and the bands (R102 to R105, R115) -/

theorem Keeps.reevaluateBand (s : State) : Keeps s s.reevaluateBand := by
  refine Keeps.ite (fun _ => Keeps.refl s) fun _ => Keeps.forSessions (Keeps.setMeter rfl fun h => h)
    fun n x u _ => Keeps.judgeBand u n _

/-- A lock counted down has ended or still has a minute left (R76). -/
theorem Account.inRange_tickLock {a : Account} (h : a.inRange) : a.tickLock.endLock.inRange := by
  obtain ⟨h1, h2, h3, h4, h5, h6, h7, h8, h9, h10, hlock⟩ := h
  cases hl : a.lock with
  | timed m =>
    have hm := hlock m hl
    simp only [Account.tickLock, hl, Account.endLock, Lock.timed.injEq]
    split
    · exact ⟨h1, h2, h3, h4, h5, h6, h7, h8, h9, Nat.zero_le _, by simp⟩
    · refine ⟨h1, h2, h3, h4, h5, h6, h7, h8, h9, h10, fun k hk => ?_⟩
      cases hk
      omega
  | none | held =>
    simp only [Account.tickLock, hl, Account.endLock, reduceCtorEq, if_false]
    exact ⟨h1, h2, h3, h4, h5, h6, h7, h8, h9, h10, by simp [hl]⟩

theorem Account.name_endLock (a : Account) : a.endLock.name = a.name := by
  simp only [Account.endLock]; split <;> rfl

theorem Account.budgets_endLock (a : Account) :
    a.endLock.budget = a.budget ∧ a.endLock.units = a.units ∧ a.endLock.basis = a.basis := by
  simp only [Account.endLock]; split <;> exact ⟨rfl, rfl, rfl⟩

theorem Account.name_tickLock (a : Account) : a.tickLock.name = a.name := by
  simp only [Account.tickLock]; split <;> rfl

theorem Account.budgets_tickLock (a : Account) :
    a.tickLock.budget = a.budget ∧ a.tickLock.units = a.units ∧ a.tickLock.basis = a.basis := by
  simp only [Account.tickLock]; split <;> exact ⟨rfl, rfl, rfl⟩

theorem State.slot_tickLocks {s : State} (i : SlotNo) :
    s.tickLocks.slot i = (s.slot i).map fun a => a.tickLock.endLock := by
  simp [State.tickLocks, State.slot]

theorem Keeps.tickLocks (s : State) : Keeps s s.tickLocks := by
  refine Keeps.of_frame s.frame_tickLocks (budgets := fun _ hs i b hb => ?_)
    (names := fun _ hs i j b c hb hc hbc => ?_)
    (slots := fun _ hs => ⟨fun i b hb => ?_, hs.inRange.slots.2⟩) <;>
    rw [State.slot_tickLocks] at hb <;> obtain ⟨a, ha, rfl⟩ := Option.map_eq_some_iff.mp hb
  · obtain ⟨e1, e2, e3⟩ := a.tickLock.budgets_endLock
    obtain ⟨f1, f2, f3⟩ := a.budgets_tickLock
    rw [e1, e2, e3, f1, f2, f3]
    exact hs i a ha
  · rw [State.slot_tickLocks] at hc
    obtain ⟨d, hd, rfl⟩ := Option.map_eq_some_iff.mp hc
    simp only [Account.name_endLock, Account.name_tickLock] at hbc
    exact hs i j a d ha hd hbc
  · exact Account.inRange_tickLock (hs.inRange.slots.1 i a ha)

theorem Keeps.lockEnd (s : State) (i : SlotNo) : Keeps s (s.updSlot i Account.endLock) := by
  refine Keeps.updSlot (fun a _ => a.name_endLock) (fun a _ h => ?_) fun a _ _ h => ?_
  · obtain ⟨e1, e2, e3⟩ := a.budgets_endLock
    rwa [e1, e2, e3]
  · simp only [Account.endLock]
    split
    · obtain ⟨h1, h2, h3, h4, h5, h6, h7, h8, h9, -⟩ := h
      exact ⟨h1, h2, h3, h4, h5, h6, h7, h8, h9, Nat.zero_le _, by simp⟩
    · exact h

theorem Meter.sessions_advanceClock (m : Meter) : m.advanceClock.sessions = m.sessions := by
  simp only [Meter.advanceClock]; split <;> rfl

theorem Keeps.minuteTicked (s : State) : Keeps s s.minuteTicked := by
  refine Keeps.ite (fun _ => ?_) fun _ => Keeps.refl s
  have clock : Keeps s { s with meter :=
      { s.meter.advanceClock with minutesDue := s.meter.minutesDue - 1 } } :=
    Keeps.setMeter s.meter.sessions_advanceClock Meter.inRange_advanceClock
  exact (Keeps.forSessions (clock.trans (Keeps.reevaluateBand _))
    fun n x u _ => Keeps.idleCheck u n x).trans (Keeps.tickLocks _)

/-! ## The cells (R103, R104, R106, R107) -/

theorem Keeps.refuse (s : State) (m : Master) (o : Offset) : Keeps s (s.refuse m o) :=
  Keeps.of_frame (s.frame_refuse m o)

theorem Keeps.writeClockMinute (s : State) (w : Word) : Keeps s (s.writeClockMinute w) := by
  refine Keeps.ite (fun hw => ?_) fun _ => Keeps.refuse s _ _
  have clock : Keeps s { s with meter := { s.meter with
      minute := clockMinuteField w, weekday := clockWeekdayField w } } := by
    refine Keeps.setMeter rfl fun h => ?_
    obtain ⟨hshort, hsec, -, -, hrest⟩ := h
    exact ⟨hshort, hsec, hw.1, hw.2, hrest⟩
  exact clock.trans (Keeps.reevaluateBand _)

theorem Keeps.writeClockDay (s : State) (w : Word) : Keeps s (s.writeClockDay w) := by
  have clock : Keeps s { s with meter := { s.meter with day := w } } :=
    Keeps.setMeter rfl fun h => h
  exact clock.trans (Keeps.reevaluateBand _)

theorem Keeps.writeBandStart (s : State) (b : BandNo) (w : Word) : Keeps s (s.writeBandStart b w) := by
  refine Keeps.ite (fun hw => Keeps.setMeter rfl fun h => ?_) fun _ => Keeps.refuse s _ _
  obtain ⟨hshort, hsec, hmin, hday, hstart, hrate⟩ := h
  refine ⟨hshort, hsec, hmin, hday, fun c => ?_, hrate⟩
  by_cases hc : c = b
  · subst hc
    simpa [Meter.bandStart] using hw
  · have := hstart c
    simpa [Meter.bandStart, Vector.getElem_set, Fin.val_inj, Ne.symm hc] using this

theorem Keeps.writeWeekend (s : State) (w : Word) : Keeps s (s.writeWeekend w) :=
  Keeps.setMeter rfl fun h => h

theorem Keeps.writeTariff (s : State) (b : BandNo) (v : SpeedNo) (w : Word) :
    Keeps s (s.writeTariff b v w) := by
  refine Keeps.ite (fun hw => Keeps.setMeter rfl fun h => ?_) fun _ => Keeps.refuse s _ _
  obtain ⟨hshort, hsec, hmin, hday, hstart, hrate⟩ := h
  refine ⟨hshort, hsec, hmin, hday, hstart, fun c u => ?_⟩
  have := hrate c u
  simp only [Fin.getElem_fin, Vector.getElem_set] at this ⊢
  split
  · exact hw
  · exact this

theorem Keeps.writePermit (s : State) (c : AccountClass) (w : Word) : Keeps s (s.writePermit c w) :=
  Keeps.forSessions (Keeps.setMeter rfl fun h => h) fun n _ u _ =>
    Keeps.ite (fun _ => Keeps.judgeBand u n _) fun _ => Keeps.refl u

end Sys2Proof.Machine
end

section
/-!
SUPPORT. What the Line Monitor's and the Sign-On Engine's operations keep.
-/

namespace Sys2Proof.Machine

-- One proof after another: a default `by` argument waits for every earlier proof of the text.
set_option Elab.async false

/-! ## Clearing and the states of a mode (R2, R16, R17) -/

/-- A line in no call: OFF, PASSIVE or IDLE, or in CLEARING after one. -/
def LineState.idle? (x : LineState) : Bool :=
  match x with
  | .off | .passive | .idle | .clearing => true
  | .ringing | .answering | .name | .password | .checking | .signedOn => false

theorem LineState.of_idle? {x : LineState} (h : x.idle? = true) :
    x.inDialogue = false ∧ x ≠ .ringing ∧ x ≠ .signedOn := by
  cases x <;> simp_all [LineState.idle?, LineState.inDialogue]

/-- A line in no call moved to another state of that kind. -/
theorem LineRecord.SameCall.of_idle {old r : LineRecord} (ho : old.state.idle? = true)
    (hr : r.state.idle? = true) (context : r.context = old.context)
    (clearing : (old.clearing.isSome = true ↔ old.state = .clearing) →
      (r.clearing.isSome = true ↔ r.state = .clearing))
    (missed : old.missed ≤ 15 → r.missed ≤ 15) (idle : r.idle = old.idle) : old.SameCall r := by
  obtain ⟨ho1, ho2, ho3⟩ := LineState.of_idle? ho
  obtain ⟨hr1, hr2, hr3⟩ := LineState.of_idle? hr
  exact ⟨context, by rw [ho1, hr1], iff_of_false hr2 ho2, iff_of_false hr3 ho3, clearing, missed,
    by rw [idle]; exact id⟩

/-- The state of a mode (R2). -/
def LineMode.restState (m : LineMode) : LineState :=
  match m with
  | .watched => .idle
  | .off => .off
  | .passive => .passive

theorem LineMode.restState_idle? (m : LineMode) : m.restState.idle? = true := by cases m <;> rfl

theorem LineMode.restState_ne_clearing (m : LineMode) : m.restState ≠ .clearing := by
  cases m <;> simp [LineMode.restState]

/-- What entry to the state of a mode leaves of a record (R2, R16). -/
theorem LineRecord.toMode_fields (r : LineRecord) (m : LineMode) :
    (r.toMode m).state = m.restState ∧ (r.toMode m).context = r.context
      ∧ (r.toMode m).clearing = r.clearing ∧ (r.toMode m).missed = r.missed
      ∧ (r.toMode m).idle = r.idle := by
  cases m <;> exact ⟨rfl, rfl, rfl, rfl, rfl⟩

/-- The end of CLEARING, whatever it leaves in the sticky marks and the slot (R16, R17). -/
theorem LineRecord.SameCall.endClearing {old r : LineRecord} (ho : old.state = .clearing)
    (state : r.state = old.state := by rfl) (context : r.context = old.context := by rfl)
    (clearing : r.clearing = old.clearing := by rfl) (missed : r.missed = old.missed := by rfl)
    (idle : r.idle = old.idle := by rfl) : old.SameCall r.endClearing := by
  simp only [LineRecord.endClearing]
  split
  · rename_i c hc
    obtain ⟨hs, hctx, hcl, hm, hi⟩ := LineRecord.toMode_fields { r with clearing := none } c.modeAfter
    refine .of_idle (by rw [ho]; rfl) (by rw [hs]; exact c.modeAfter.restState_idle?)
      (hctx.trans context) (fun _ => ?_) (by rw [hm, missed]; exact id) (hi.trans idle)
    rw [hcl, hs]
    exact iff_of_false (by simp) c.modeAfter.restState_ne_clearing
  · exact .of_eq state context (by rw [clearing]) missed idle

theorem LineRecord.clearing_of_done {r : LineRecord} (h : r.clearingDone = true) :
    r.state = .clearing := by
  simp only [LineRecord.clearingDone, Bool.and_eq_true, beq_iff_eq] at h
  exact h.1.1

theorem Keeps.testClearing (s : State) (n : LineNo) : Keeps s (s.testClearing n) := by
  refine Keeps.updLine ?_
  split
  · rename_i h
    exact .endClearing (LineRecord.clearing_of_done h)
  · exact .of_eq

theorem Keeps.clearingExpired (s : State) (n : LineNo) :
    Keeps s (s.updLine n LineRecord.clearingExpired) := by
  refine Keeps.updLine ?_
  simp only [LineRecord.clearingExpired]
  split
  · rename_i c hst _
    split
    · exact .endClearing hst
    · exact .of_eq
  · exact .of_eq

/-! ## Status words (R4 to R8, R33) -/

theorem Keeps.unsolicited {s : State} {n : LineNo}
    (hst : (s.line n).state = .idle ∨ (s.line n).state = .ringing) : Keeps s (s.unsolicited n) := by
  have hd : (s.line n).state.inDialogue = false := by rcases hst with h | h <;> rw [h] <;> rfl
  have hx : (s.line n).state ≠ .signedOn := by rcases hst with h | h <;> rw [h] <;> simp
  have left : Keeps s (((s.leaveQueue n).hangUp n .rude).enterClearing n) := by
    rw [State.enterClearing, State.hangUp, State.updLine_updLine]
    have hl : (s.leaveQueue n).line n = { s.line n with ringGone := none } :=
      State.line_of_lines (s.lines_leaveQueue n)
    refine Keeps.leaveQueue hd hx rfl (by simp [LineRecord.toClearing])
      (by simp [LineRecord.toClearing]) ?_ (fun _ => iff_of_true rfl rfl) ?_ ?_
    all_goals simp [hl, LineRecord.toClearing]
  exact left.trans (Keeps.give _ _)

theorem Keeps.answered {s : State} {n : LineNo} (hst : (s.line n).state = .answering) :
    Keeps s (s.answered n) := by
  have moved : ∀ u : State, u.line n = s.line n → Keeps u (((u.withdrawAnswer n).updLine n
      fun r => { r with answer := none, state := .name }).give (.promptConnect n)) := by
    intro u hu
    refine Keeps.trans ?_ (Keeps.give _ _)
    rw [State.withdrawAnswer, State.updLine_updLine]
    exact Keeps.updLine (.of_dialogue (by rw [hu, hst]; rfl) rfl)
  have timed : ∀ k, Keeps s (s.updCtx k fun c =>
      { c with signOnTime := some (s.plan.signOnLimit * Config.ticksPerSecond) }) := fun k =>
    Keeps.updCtx rfl fun _ h => h
  simp only [State.answered]
  split
  · exact (timed _).trans (moved _ rfl)
  · exact moved s rfl

theorem Keeps.glitch (s : State) (n : LineNo) : Keeps s (s.glitch n) := by
  have marked : Keeps s (s.updLine n fun r =>
      { r with doubt := none, sticky := r.sticky ||| glitchMark }) := Keeps.updLine .of_eq
  exact Keeps.ite (fun _ => marked.trans (Keeps.updSession fun x _ _ h =>
    Session.inRange_of_counts (h := h))) fun _ => marked

theorem Keeps.setSpeed (s : State) (n : LineNo) (w : Word) : Keeps s (s.setSpeed n w) :=
  Keeps.updLine .of_eq

theorem State.state_setSpeed (s : State) (n : LineNo) (w : Word) :
    ((s.setSpeed n w).line n).state = (s.line n).state := by simp [State.setSpeed]

theorem Keeps.doubtRule (s : State) (n : LineNo) (w : Word) (rising falling : Bool) :
    Keeps s (match (s.line n).doubt with
      | some _ => if statusCarrier w then s.glitch n else s
      | none =>
        if falling then s.updLine n fun r => { r with doubt := some s.plan.carrierHold }
        else if rising then s.setSpeed n w
        else s) := by
  split
  · exact Keeps.ite (fun _ => Keeps.glitch s n) fun _ => Keeps.refl s
  · exact Keeps.ite (fun _ => Keeps.updLine .of_eq) fun _ =>
      Keeps.ite (fun _ => Keeps.setSpeed s n w) fun _ => Keeps.refl s

theorem Keeps.carrierRule (s : State) (n : LineNo) (w : Word) : Keeps s (s.carrierRule n w) := by
  simp only [State.carrierRule]
  have speed := State.state_setSpeed s n w
  cases hst : (s.line n).state with
  | idle | ringing =>
    exact Keeps.ite (fun _ => (Keeps.setSpeed s n w).trans
      (Keeps.unsolicited (by rw [speed, hst]; simp))) fun _ => Keeps.refl s
  | answering =>
    exact Keeps.ite (fun _ => (Keeps.setSpeed s n w).trans (Keeps.answered (by rw [speed, hst])))
      fun _ => Keeps.refl s
  | name | password | checking | signedOn => exact Keeps.doubtRule s n w _ _
  | off | passive | clearing => exact Keeps.refl s

theorem Keeps.ringRule (s : State) (n : LineNo) (w : Word) : Keeps s (s.ringRule n w) := by
  refine Keeps.ite (fun _ => ?_) fun _ => Keeps.refl s
  cases hst : (s.line n).state with
  | idle =>
    refine Keeps.ite (fun _ => ?_) fun _ => Keeps.refl s
    rw [State.ringArrival_eq]
    exact (Keeps.queued hst).trans (Keeps.evaluateGrants _)
  | ringing => exact Keeps.updLine .of_eq
  | off | passive | answering | name | password | checking | signedOn | clearing =>
    exact Keeps.refl s

theorem Keeps.writeArea (s : State) (o : Offset) (v : Word) : Keeps s (s.writeArea o v) :=
  Keeps.of_frame (s.frame_writeArea o v)

theorem Keeps.setLastSeen (s : State) (n : LineNo) (w : Word) : Keeps s (s.setLastSeen n w) :=
  Keeps.updLine .of_eq

theorem Keeps.statusWritten (s : State) (n : LineNo) (w : Word) : Keeps s (s.statusWritten n w) := by
  simp only [State.statusWritten]
  have ruled : ∀ u : State, Keeps u
      ((((u.carrierRule n w).ringRule n w).setLastSeen n w).testClearing n) := fun u =>
    (Keeps.carrierRule u n w).trans ((Keeps.ringRule _ n w).trans
      ((Keeps.setLastSeen _ n w).trans (Keeps.testClearing _ n)))
  refine (Keeps.writeArea s (statusOffset n) w).trans ?_
  split
  · exact Keeps.refl _
  · exact Keeps.setLastSeen _ n w
  all_goals exact ruled _

theorem Keeps.doubtExpired (s : State) (n : LineNo) : Keeps s (s.doubtExpired n) := by
  have ended : Keeps s (s.updLine n fun r => { r with doubt := none }) := Keeps.updLine .of_eq
  refine Keeps.ite (fun _ => ended.trans ?_) fun _ => Keeps.refl s
  exact Keeps.ite (fun h => Keeps.clearDialogue _ _ h) fun _ =>
    Keeps.ite (fun _ => Keeps.closeSession _ n _ _) fun _ => Keeps.refl _

/-! ## The command-word handshake and the line cells (R10 to R14, R18 to R21) -/

theorem Keeps.readCommand (s : State) (n : LineNo) : Keeps s (s.readCommand n).2 := by
  simp only [State.readCommand]
  split
  · exact Keeps.refl s
  · split
    · dsimp only
      exact Keeps.updLine .of_eq
    · exact Keeps.refl s

theorem LineRecord.SameCall.seeAck {old r : LineRecord} (state : r.state = old.state := by rfl)
    (context : r.context = old.context := by rfl) (clearing : r.clearing = old.clearing := by rfl)
    (missed : r.missed = old.missed := by rfl) (idle : r.idle = old.idle := by rfl) :
    old.SameCall r.seeAck := by
  simp only [LineRecord.seeAck]
  split
  · exact .of_eq state context (by rw [Option.isSome_map, clearing]) missed idle
  · exact .of_eq state context (by rw [clearing]) missed idle

theorem Keeps.acknowledge (s : State) (n : LineNo) (w : Word) : Keeps s (s.acknowledge n w) := by
  simp only [State.acknowledge]
  split
  · refine Keeps.trans (Keeps.updLine ?_) (Keeps.testClearing _ n)
    simp only [LineRecord.takeAck]
    split
    · exact .seeAck
    · exact .of_eq
  · refine (Keeps.writeArea s _ w).trans (Keeps.trans (Keeps.updLine ?_) (Keeps.testClearing _ n))
    simp only [LineRecord.passAck]
    split
    · exact .seeAck
    · exact .of_eq

theorem Keeps.processorCommand (s : State) (n : LineNo) (w : Word) :
    Keeps s (s.processorCommand n w) := by
  have passed := Keeps.writeArea s (commandOffset n) w
  refine Keeps.ite (fun _ => passed.trans ?_) fun _ => passed
  exact Keeps.ite (fun _ => Keeps.closeSession _ n _ _) fun _ =>
    Keeps.ite (fun h => Keeps.clearDialogue _ _ h) fun _ => Keeps.refl _

/-- A line in no call takes the state of a mode. -/
theorem Keeps.toMode {s : State} {n : LineNo} (m : LineMode) (hst : (s.line n).state.idle? = true)
    (hcl : (s.line n).state ≠ .clearing) : Keeps s (s.updLine n fun r => r.toMode m) := by
  obtain ⟨hs, hctx, hc, hm, hi⟩ := LineRecord.toMode_fields (s.line n) m
  refine Keeps.updLine (.of_idle hst (by rw [hs]; exact m.restState_idle?) hctx (fun h => ?_)
    (by rw [hm]; exact id) hi)
  rw [hc, hs]
  exact h.trans (iff_of_false hcl m.restState_ne_clearing)

/-- A RINGING line leaves the queue for the state of a mode, its missed calls still in range (R19, R20,
R26). -/
theorem Keeps.stopRinging {s : State} {n : LineNo} (m : LineMode) {f : LineRecord → LineRecord}
    (hst : (s.line n).state = .ringing)
    (hf : ∀ r, (f r).state = r.state ∧ (f r).context = r.context ∧ (f r).clearing = r.clearing
      ∧ (r.missed ≤ 15 → (f r).missed ≤ 15) ∧ (f r).idle = r.idle) :
    Keeps s ((s.leaveQueue n).updLine n fun r => f (r.toMode m)) := by
  have hl : (s.leaveQueue n).line n = { s.line n with ringGone := none } :=
    State.line_of_lines (s.lines_leaveQueue n)
  obtain ⟨hs, hctx, hc, hm, hi⟩ := LineRecord.toMode_fields ((s.leaveQueue n).line n) m
  obtain ⟨fs, fctx, fc, fm, fi⟩ := hf (((s.leaveQueue n).line n).toMode m)
  obtain ⟨hd, hr, hx⟩ := LineState.of_idle? m.restState_idle?
  refine Keeps.leaveQueue (by rw [hst]; rfl) (by rw [hst]; simp) ?_ ?_ ?_ ?_ (fun h => ?_) ?_ ?_
  · rw [fs, hs, hd]
  · rw [fs, hs]
    exact hx
  · rw [fs, hs]
    exact hr
  · rw [fctx, hctx, hl]
  · rw [fc, hc, fs, hs, hl]
    exact h.trans (iff_of_false (by rw [hst]; simp) m.restState_ne_clearing)
  · intro h
    refine fm ?_
    rw [hm, hl]
    exact h
  · rw [fi, hi, hl]
    exact id

theorem Keeps.ringGoneExpired (s : State) (n : LineNo) : Keeps s (s.ringGoneExpired n) :=
  Keeps.ite (fun h => Keeps.stopRinging .watched (f := fun r =>
    { r with missed := min (r.missed + 1) 15 }) h.1
      fun _ => ⟨rfl, rfl, rfl, fun _ => Nat.min_le_right _ _, rfl⟩) fun _ => Keeps.refl s

theorem Keeps.modeLoaded (s : State) (n : LineNo) (m : LineMode) : Keeps s (s.modeLoaded n m) := by
  refine Keeps.ite (fun _ => Keeps.refl s) fun _ => ?_
  dsimp only
  have moded : Keeps s (s.updLine n fun r => { r with mode := m }) := Keeps.updLine .of_eq
  have state : ((s.updLine n fun r => { r with mode := m }).line n).state = (s.line n).state := by
    simp
  refine moded.trans ?_
  generalize (s.updLine n fun r => { r with mode := m }) = u at state
  rw [← state]
  cases hst : (u.line n).state with
  | off | passive | idle => exact Keeps.toMode m (by rw [hst]; rfl) (by rw [hst]; simp)
  | ringing => exact Keeps.stopRinging m (f := id) hst fun _ => ⟨rfl, rfl, rfl, id, rfl⟩
  | answering | name | password | checking => exact Keeps.clearDialogue _ _ (by rw [hst]; rfl)
  | signedOn => exact Keeps.closeSession _ n _ _
  | clearing => exact Keeps.updLine (.of_eq rfl rfl (by rw [Option.isSome_map]))

theorem Keeps.hangRequested (s : State) (n : LineNo) (m : Manner) :
    Keeps s (s.hangRequested n m) := by
  simp only [State.hangRequested]
  cases hst : (s.line n).state with
  | signedOn => exact Keeps.closeSession s n _ _
  | answering | name | password | checking => exact Keeps.clearDialogue _ _ (by rw [hst]; rfl)
  | ringing => exact Keeps.stopRinging .watched (f := id) hst fun _ => ⟨rfl, rfl, rfl, id, rfl⟩
  | clearing => exact Keeps.ite (fun _ => Keeps.hangUp s n _) fun _ => Keeps.refl s
  | idle | off | passive => exact Keeps.refl s

theorem Keeps.writeSetting (s : State) (n : LineNo) (w : Word) : Keeps s (s.writeSetting n w) := by
  refine Keeps.ite (fun _ => Keeps.refuse s _ _) fun _ => ?_
  have loaded : Keeps s (s.settingModeLoad n w) := by
    simp only [State.settingModeLoad]
    split
    · exact Keeps.modeLoaded s n _
    · exact Keeps.refl s
  refine loaded.trans ?_
  simp only [State.settingHangRequest]
  split
  · exact Keeps.hangRequested _ n _
  all_goals exact Keeps.refl _

theorem Keeps.readStatus0 (s : State) (n : LineNo) : Keeps s (s.readStatus0 n).2 :=
  Keeps.updLine (f := fun r => { r with sticky := 0, missed := 0 })
    ⟨rfl, rfl, .rfl, .rfl, id, fun _ => Nat.zero_le _, id⟩

theorem Keeps.answerExpired (s : State) (n : LineNo) : Keeps s (s.answerExpired n) :=
  Keeps.ite (fun h => Keeps.clearDialogue _ _ (by rw [h.1]; rfl)) fun _ => Keeps.refl s

/-! ## The dialogue (R42 to R50) -/

/-- A dialogue moved on inside itself, after a change of its context. -/
theorem Keeps.movedOn {s : State} {n : LineNo} {k : CtxNo} {f : Context → Context} (x : LineState)
    (ho : (s.line n).state.inDialogue = true) (hx : x.inDialogue = true) :
    Keeps (s.updCtx k f) ((s.updCtx k f).updLine n fun r => { r with state := x }) :=
  Keeps.updLine (.of_dialogue ho hx)

theorem Keeps.endName {s : State} {n : LineNo} (k : CtxNo) (hst : (s.line n).state = .name) :
    Keeps s (s.endName k n) := by
  refine Keeps.ite (fun _ => Keeps.refl s) fun _ =>
    Keeps.ite (fun _ => Keeps.rejectAttempt _ (by rw [hst]; rfl)) fun _ => ?_
  have emptied : Keeps s (s.updCtx k fun c => { c with password := [], passwordLong := false }) :=
    Keeps.updCtx rfl fun _ ⟨hatt, hnoise, hname, _, hheld⟩ =>
      ⟨hatt, hnoise, hname, Nat.zero_le _, hheld⟩
  exact emptied.trans ((Keeps.movedOn .password (by rw [hst]; rfl) rfl).trans (Keeps.give _ _))

theorem Keeps.endPassword {s : State} {n : LineNo} {k : CtxNo} (hst : (s.line n).state = .password)
    (hk : (s.line n).context = some k) : Keeps s (s.endPassword k n) := by
  refine Keeps.ite (fun _ => Keeps.refl s) fun _ => ?_
  have submitted : Keeps s (s.updCtx k Context.submitted) :=
    Keeps.updCtx rfl fun _ ⟨hatt, hnoise, hname, _, hheld⟩ =>
      ⟨hatt, hnoise, hname, Nat.zero_le _, hheld⟩
  refine submitted.trans ((Keeps.movedOn .checking (by rw [hst]; rfl) rfl).trans
    (Keeps.submit (.inr ⟨n, ?_⟩)))
  simp [hk]

theorem Keeps.restartDialogue {s : State} {n : LineNo} (k : CtxNo)
    (hst : (s.line n).state.inDialogue = true) : Keeps s (s.restartDialogue k n) := by
  have emptied : Keeps s (s.updCtx k Context.restarted) :=
    Keeps.updCtx rfl fun _ ⟨hatt, hnoise, _, _, hheld⟩ =>
      ⟨hatt, hnoise, Nat.zero_le _, Nat.zero_le _, hheld⟩
  exact emptied.trans ((Keeps.movedOn .name hst rfl).trans (Keeps.give _ _))

/-- The eighth noise of a context goes with its release, so that a held context counts at most seven
(R50). -/
theorem Keeps.countNoise {s : State} {n : LineNo} {k : CtxNo} (hk : (s.line n).context = some k) :
    Keeps s (s.countNoise k n) := by
  refine Keeps.ite (fun _ => ?_) fun hlt => Keeps.updCtx rfl fun _ ⟨hatt, _, hname, hpass, _⟩ => ?_
  · rw [State.clearDialogue_eq]
    refine Keeps.trans ?_ (Keeps.evaluateGrants _)
    have hu : ((s.updCtx k fun c => { c with noise := c.noise + 1 }).line n).context = some k := by
      simpa using hk
    have hc := State.contexts_dialogueEnded .noisy (some .rude) hu
    rw [State.ctx_updCtx_same, State.contexts_updCtx, Vector.set_set] at hc
    refine Keeps.released (((s.frame_updCtx k _).mono (by decide)).step
      (State.frame_dialogueEnded _ n _ _)) (State.lines_dialogueEnded _ _ hu) hc rfl rfl rfl rfl
      (fun hr hheld => ?_) hk
    obtain ⟨hatt, -, hname, hpass, hnoise⟩ := hr
    exact ⟨hatt, Nat.succ_le_succ (hnoise hheld), hname, hpass, by simp⟩
  · rw [State.ctx_updCtx_same] at hlt
    exact ⟨hatt, by dsimp only at hlt ⊢; omega, hname, hpass, fun _ => by dsimp only at hlt ⊢; omega⟩

theorem editBuffer_length {buffer : List Byte} (long : Bool) (c stored : Byte)
    (h : buffer.length ≤ 12) : (editBuffer buffer long c stored).1.length ≤ 12 := by
  simp only [editBuffer]
  split
  · simp only [typeChar]
    split
    · simp only [List.length_append, List.length_singleton]
      omega
    · exact h
  · split
    · simp only [List.length_dropLast]
      omega
    · split
      · exact Nat.zero_le _
      · exact h

theorem Keeps.dialogueEntry {s : State} {n : LineNo} {k : CtxNo} (w : Word)
    (hk : (s.line n).context = some k) : Keeps s (s.dialogueEntry k n w) := by
  simp only [State.dialogueEntry]
  cases hst : (s.line n).state with
  | name =>
    refine Keeps.ite (fun _ => Keeps.restartDialogue k (by rw [hst]; rfl)) fun _ =>
      Keeps.ite (fun _ => Keeps.countNoise hk) fun _ =>
      Keeps.ite (fun _ => Keeps.endName k hst) fun _ => Keeps.updCtx rfl ?_
    exact fun _ ⟨hatt, hnoise, hname, hpass, hheld⟩ =>
      ⟨hatt, hnoise, editBuffer_length _ _ _ hname, hpass, hheld⟩
  | password =>
    refine Keeps.ite (fun _ => Keeps.restartDialogue k (by rw [hst]; rfl)) fun _ =>
      Keeps.ite (fun _ => Keeps.countNoise hk) fun _ =>
      Keeps.ite (fun _ => Keeps.endPassword hst hk) fun _ => Keeps.updCtx rfl ?_
    exact fun _ ⟨hatt, hnoise, hname, hpass, hheld⟩ =>
      ⟨hatt, hnoise, hname, editBuffer_length _ _ _ hpass, hheld⟩
  | answering | checking | off | passive | idle | ringing | signedOn | clearing =>
    exact Keeps.refl s

theorem Keeps.addMarks (s : State) (n : LineNo) (w : Word) : Keeps s (s.addMarks n w) :=
  Keeps.updLine .of_eq

theorem Keeps.receive (s : State) (n : LineNo) (i : Fin 32) (w : Word) :
    Keeps s (s.receive n i w) := by
  simp only [State.receive]
  refine (Keeps.writeArea s (receiveOffset n i) (s.entryInMemory n w)).trans ?_
  have marked := fun u : State => Keeps.addMarks u n w
  have entered : ∀ u : State, Keeps u (match ((u.addMarks n w).line n).context with
      | some k => (u.addMarks n w).dialogueEntry k n w
      | none => u.addMarks n w) := by
    intro u
    refine (marked u).trans ?_
    split
    · exact Keeps.dialogueEntry w ‹_›
    · exact Keeps.refl _
  split
  · exact Keeps.refl _
  case h_6 =>
    refine (marked _).trans (Keeps.trans (Keeps.updLine .of_eq) (Keeps.updSession fun x _ _ h => ?_))
    exact Session.inRange_of_counts (h := h)
  all_goals first
    | exact marked _
    | exact entered _

theorem Keeps.signOnExpired (s : State) (k : CtxNo) : Keeps s (s.signOnExpired k) := by
  simp only [State.signOnExpired]
  split
  · rename_i n hn
    refine Keeps.ite (fun _ => ?_) fun _ => Keeps.refl s
    by_cases hs : WellLinked s
    · refine Keeps.clearDialogue _ _ ?_
      rw [← (hs.line n).2.2.1, ((hs.line n).2.1 k).mpr hn]
      rfl
    · exact Keeps.of_unlinked (s.frame_clearDialogue n _ _) hs
  · exact Keeps.refl s

end Sys2Proof.Machine
end

section
/-!
SUPPORT. What the plan's, the journal's, the Attention Controller's and the staging cells' operations keep.
-/

namespace Sys2Proof.Machine

-- One proof after another: a default `by` argument waits for every earlier proof of the text.
set_option Elab.async false

/-! ## The plan (R166, R167) -/

/-- No grant is made where the next one is not allowed (R30). -/
theorem State.evaluateGrants_of_none {s : State} (h : s.nextGrant = none) : s.evaluateGrants = s := by
  simp [State.evaluateGrants, State.grants, h]

theorem State.nextGrant_of_not_planned {s : State} (h : s.plan.state ≠ .planned) :
    s.nextGrant = none := by
  cases hg : s.nextGrant with
  | none => rfl
  | some kn => exact absurd (State.nextGrant_some hg).1 h

theorem planFill_unprintable (w : Word) :
    printable (((planFill w).extractLsb' 0 7).setWidth 8) = false := by
  simp only [planFill]
  split
  · decide
  · rename_i h
    simpa using h

theorem LineRecord.planStarted_ringing {r : LineRecord} (h : r.state = .ringing) :
    r.planStarted = { r with ringGone := none }.toMode .watched := if_pos h

theorem LineRecord.planStarted_other {r : LineRecord} (h : r.state ≠ .ringing) :
    r.planStarted = r := if_neg h

/-- What a plan start leaves of a line record (R166 step 1). -/
theorem LineRecord.planStarted_fields (r : LineRecord) :
    r.planStarted.context = r.context ∧ r.planStarted.missed = r.missed
      ∧ r.planStarted.idle = r.idle ∧ r.planStarted.state ≠ .ringing
      ∧ r.planStarted.state.inDialogue = r.state.inDialogue
      ∧ (r.planStarted.state = .signedOn ↔ r.state = .signedOn)
      ∧ (r.planStarted.state = .clearing ↔ r.state = .clearing)
      ∧ r.planStarted.clearing = r.clearing := by
  by_cases h : r.state = .ringing
  · rw [LineRecord.planStarted_ringing h, h]
    simp [LineRecord.toMode, LineState.inDialogue]
  · rw [LineRecord.planStarted_other h]
    exact ⟨rfl, rfl, rfl, h, rfl, .rfl, .rfl, rfl⟩

/-- The part after an accepted plan start (R166). -/
def State.planStarted (s : State) (w : Word) : State :=
  { s with
    lines := s.lines.map LineRecord.planStarted
    answerQueue := []
    fill := planFill w
    journal := { s.journal with capacity := 0, head := 0, tail := 0, visible := 0 }
    attention := Attention.reset
    plan := { s.plan with state := .planning 2 } }

theorem State.line_planStarted (s : State) (w : Word) (n : LineNo) :
    (s.planStarted w).line n = (s.line n).planStarted := by
  simp [State.planStarted, State.line]

theorem State.frame_planStarted (s : State) (w : Word) :
    SameBut [.lines, .answerQueue, .fill, .ring, .queues, .inService, .priority, .plan] s
      (s.planStarted w) := by
  intro b hb; cases b <;> first | exact absurd (by decide) hb | simp [Block.same, State.planStarted]

theorem Keeps.planStarted (s : State) (w : Word) : Keeps s (s.planStarted w) := by
  have hline := s.line_planStarted w
  refine Keeps.of_frame (s.frame_planStarted w) (fill := fun _ _ => planFill_unprintable w)
    (links := fun _ hs => wellLinked_iff.mpr ⟨List.nodup_nil, fun n => ?_⟩)
    (lines := fun _ hs n => ?_) (ring := fun _ hs => ?_) (plan := fun _ hs => ?_)
    (unanswered := fun _ _ _ hu => ⟨fun n => ?_, hu.2⟩)
  · obtain ⟨-, hk, hd, hx, hc⟩ := hs.line n
    obtain ⟨ectx, -, -, hring, hdia, hses, hclr, ecl⟩ := (s.line n).planStarted_fields
    simp only [LineLinked, hline, ectx, hdia, hses, hclr, ecl]
    exact ⟨iff_of_false (by simp [State.planStarted]) hring, hk, hd, hx, hc⟩
  · obtain ⟨-, em, ei, -⟩ := (s.line n).planStarted_fields
    rw [hline, em, ei]
    exact hs.inRange.lines n
  · exact ⟨Nat.zero_le _, hs.inRange.ring.2.1, .inr rfl, .inr rfl⟩
  · obtain ⟨hlock, hgrace, -, hzero⟩ := hs.inRange.plan
    refine ⟨hlock, hgrace, ?_, fun h0 => ?_⟩
    · rintro k ⟨⟩
      exact ⟨Nat.le_refl 2, by decide, fun _ => rfl⟩
    · obtain ⟨-, -, hctx, hreq⟩ := hzero h0
      refine ⟨PlanState.noConfusion, ?_, fun n => ?_, hreq⟩
      · rintro k ⟨⟩
        decide
      · obtain ⟨ectx, -⟩ := (s.line n).planStarted_fields
        rw [hline, ectx]
        exact hctx n
  · obtain ⟨ectx, -⟩ := (s.line n).planStarted_fields
    rw [hline, ectx]
    exact hu.1 n

theorem Keeps.writePlanStart (s : State) (w : Word) : Keeps s (s.writePlanStart w) :=
  Keeps.ite (fun _ => Keeps.planStarted s w) fun _ => Keeps.give s _

/-- The plan replaced by one whose values are in range. -/
theorem Keeps.setPlan {s : State} {p : Plan} (h : Lawful s → PlanInRange (s.setPlan p)) :
    Keeps s (s.setPlan p) :=
  Keeps.of_frame (s.frame_setPlan p) (plan := fun _ => h)

/-- Plan word 8 is the one that sets the lockout time, to at least a minute (R173). -/
theorem Plan.lockTime_applyWord {p : Plan} {k : Nat} {w : Word} (hok : planWordOk k w = true)
    (h : p.lockTime ≤ 1440) : (p.applyWord k w).lockTime ≤ 1440
      ∧ ((p.applyWord k w).lockTime = 0 → k ≠ 8 ∧ p.lockTime = 0) := by
  by_cases hk : k = 8
  · subst hk
    simp only [planWordOk, within, Bool.and_eq_true, decide_eq_true_eq] at hok
    simp only [Plan.applyWord]
    omega
  · have e : (p.applyWord k w).lockTime = p.lockTime := by
      simp only [Plan.applyWord]
      split <;> first | rfl | contradiction
    rw [e]
    exact ⟨h, fun h0 => ⟨hk, h0⟩⟩

theorem Plan.graceSeconds_applyWord {p : Plan} {k : Nat} {w : Word} (hok : planWordOk k w = true)
    (h : p.graceSeconds ≤ 600) : (p.applyWord k w).graceSeconds ≤ 600 := by
  by_cases hk : k = 10
  · subst hk
    simp only [planWordOk, within, Bool.and_eq_true, decide_eq_true_eq] at hok
    simp only [Plan.applyWord]
    omega
  · have e : (p.applyWord k w).graceSeconds = p.graceSeconds := by
      simp only [Plan.applyWord]
      split <;> first | rfl | contradiction
    rw [e]
    exact h

/-- A plan word from 4 on leaves the plan's values in range, whatever it moves the plan to, as long as a
plan without a lockout time is not PLANNED by it nor past word 8 (R165, R173). -/
theorem PlanInRange.applyWord {s : State} {k : Nat} {w : Word} {x : PlanState} {e : State}
    (he : e = s.setPlan { s.plan.applyWord k w with state := x })
    (hk : s.plan.state = .planning k) (hok : planWordOk k w = true)
    (hnext : ∀ j, x = .planning j → 4 ≤ j ∧ j ≤ 11 ∧ j = k + 1) (hlast : x = .planned → k = 11)
    (h : PlanInRange s) : PlanInRange e := by
  subst he
  obtain ⟨hlock, hgrace, -, hzero⟩ := h
  obtain ⟨hlock', hzero'⟩ := Plan.lockTime_applyWord hok hlock
  refine ⟨hlock', Plan.graceSeconds_applyWord hok hgrace, fun j hj => ?_, fun h0 => ?_⟩
  · have := hnext j hj
    exact ⟨by omega, by omega, fun _ => by omega⟩
  · obtain ⟨h8, hp0⟩ := hzero' h0
    obtain ⟨-, hk8, hun⟩ := hzero hp0
    have := hk8 k hk
    exact ⟨fun hx => by have := hlast hx; omega, fun j hj => by have := hnext j hj; omega, hun⟩

/-- Plan word 3 while capacity is 0: the ring with its capacity and low mark (R123, R167). -/
def State.capacitySet (s : State) (c l : Nat) : State :=
  { s with journal := { s.journal with capacity := c, lowMark := l } }

theorem State.frame_capacitySet (s : State) (c l : Nat) : SameBut [.ring] s (s.capacitySet c l) := by
  intro b hb; cases b <;> first | exact absurd (by decide) hb | simp [Block.same, State.capacitySet]

theorem Keeps.planWord3 {s : State} {w : Word} (hk : s.plan.state = .planning 3)
    (hok : planWordOk 3 w = true) :
    Keeps s ((s.capacitySet (64 <<< field w 0 3) (field w 8 6)).setPlan
      { s.plan with state := .planning 4 }) := by
  simp only [planWordOk, within, Bool.and_eq_true, decide_eq_true_eq] at hok
  have frame := ((s.frame_capacitySet (64 <<< field w 0 3) (field w 8 6)).mono
    (bs := [.ring, .plan]) (by decide)).step
    (State.frame_setPlan _ { s.plan with state := .planning 4 })
  refine Keeps.of_frame frame (ring := fun _ hs => ?_)
    (plan := fun _ hs => ?_)
  · obtain ⟨-, -, hhead, htail⟩ := hs.inRange.ring
    have hcap := (hs.inRange.plan.2.2.1 3 hk).2.2 (Nat.le_refl 3)
    have hpow : 2 ^ field w 0 3 ≤ 2 ^ 4 := Nat.pow_le_pow_right (by decide) (by omega)
    refine ⟨?_, by simp only [State.capacitySet, State.setPlan]; omega, .inr ?_, .inr ?_⟩
    · simp only [State.capacitySet, State.setPlan, Nat.shiftLeft_eq]
      omega
    · simp only [State.capacitySet, State.setPlan]
      omega
    · simp only [State.capacitySet, State.setPlan]
      omega
  · obtain ⟨hlock, hgrace, -, hzero⟩ := hs.inRange.plan
    refine ⟨hlock, hgrace, ?_, fun h0 => ?_⟩
    · rintro k ⟨⟩
      exact ⟨by decide, by decide, fun h => absurd h (by decide)⟩
    · obtain ⟨-, -, hun⟩ := hzero h0
      refine ⟨PlanState.noConfusion, ?_, hun⟩
      rintro k ⟨⟩
      decide

theorem State.applyPlanWord_of_plan (s : State) {k : Nat} (w : Word) (h2 : k ≠ 2) (h3 : k ≠ 3) :
    s.applyPlanWord k w = s.setPlan (s.plan.applyWord k w) := by
  simp only [State.applyPlanWord]

/-- Plan word 3 makes no grant, as the plan is not PLANNED (R127, R167). -/
theorem State.applyPlanWord_three {s : State} (w : Word) (h : s.plan.state = .planning 3) :
    s.applyPlanWord 3 w = s.capacitySet (64 <<< field w 0 3) (field w 8 6) :=
  State.evaluateGrants_of_none (State.nextGrant_of_not_planned
    (s := s.capacitySet (64 <<< field w 0 3) (field w 8 6)) (by rw [State.capacitySet, h]; simp))

/-- A plan word before the last moves the plan on to the next (R167). -/
theorem Keeps.nextPlanWord {s : State} {k : Nat} {w : Word} (hk : s.plan.state = .planning k)
    (hok : planWordOk k w = true) (h11 : k ≠ 11) :
    Keeps s ((s.applyPlanWord k w).setPlan
      { (s.applyPlanWord k w).plan with state := .planning (k + 1) }) := by
  by_cases h2 : k = 2
  · subst h2
    have divided : Keeps s (s.applyPlanWord 2 w) :=
      Keeps.setMeter (m := { s.meter with divisor := some w.toNat }) rfl fun h => h
    refine divided.trans (Keeps.setPlan fun hs => ?_)
    obtain ⟨hlock, hgrace, hnext, hzero⟩ := hs.inRange.plan
    refine ⟨hlock, hgrace, ?_, fun h0 => ⟨PlanState.noConfusion, ?_, (hzero h0).2.2⟩⟩
    · rintro j ⟨⟩
      exact ⟨by decide, by decide, fun _ => (hnext 2 hk).2.2 (by decide)⟩
    · rintro j ⟨⟩
      decide
  · by_cases h3 : k = 3
    · subst h3
      rw [State.applyPlanWord_three w hk]
      exact Keeps.planWord3 hk hok
    · rw [State.applyPlanWord_of_plan s w h2 h3]
      refine Keeps.setPlan (s := s) fun hs => ?_
      refine hs.inRange.plan.applyWord rfl hk hok ?_ (fun h => by cases h)
      rintro j ⟨⟩
      have := hs.inRange.plan.2.2.1 k hk
      omega

theorem Keeps.writePlanWord (s : State) (w : Word) : Keeps s (s.writePlanWord w) := by
  simp only [State.writePlanWord]
  split
  · rename_i k hk
    refine Keeps.ite (fun hok => Keeps.ite (fun h11 => ?_) fun h11 => Keeps.nextPlanWord hk hok h11)
      fun _ => ?_
    · subst h11
      refine Keeps.trans ?_ ((Keeps.give _ _).trans (Keeps.evaluateGrants _))
      refine Keeps.setPlan (s := s) fun hs => hs.inRange.plan.applyWord rfl hk hok ?_ fun _ => rfl
      rintro j ⟨⟩
    · refine Keeps.trans (Keeps.setPlan fun hs => ?_) (Keeps.give _ _)
      obtain ⟨hlock, hgrace, -, hzero⟩ := hs.inRange.plan
      refine ⟨hlock, hgrace, ?_, fun h0 => ⟨PlanState.noConfusion, ?_, (hzero h0).2.2⟩⟩ <;>
        rintro j ⟨⟩
  · exact Keeps.refuse s _ _
  · exact Keeps.refuse s _ _

/-! ## The journal (R130 to R134, R138) -/

theorem Keeps.setRing {s : State} {h t v : Nat}
    (hh : s.journal.head < s.journal.capacity ∨ s.journal.head = 0 → h < s.journal.capacity ∨ h = 0)
    (ht : s.journal.tail < s.journal.capacity ∨ s.journal.tail = 0 →
      t < s.journal.capacity ∨ t = 0) :
    Keeps s { s with journal := { s.journal with head := h, tail := t, visible := v } } := by
  have frame : SameBut [.ring] s
      { s with journal := { s.journal with head := h, tail := t, visible := v } } := by
    intro b hb; cases b <;> first | exact absurd (by decide) hb | simp [Block.same]
  refine Keeps.of_frame frame (ring := fun _ hs => ?_)
    (plan := fun _ hs => hs.inRange.plan.of_plan rfl rfl fun _ hu => hu)
  obtain ⟨hcap, hlow, hhead, htail⟩ := hs.inRange.ring
  exact ⟨hcap, hlow, hh hhead, ht htail⟩

theorem advance_lt (p c : Nat) : advance p c < c ∨ advance p c = 0 := by
  simp only [advance]
  split
  · exact .inl ‹_›
  · exact .inr rfl

theorem Keeps.recordPosted (s : State) : Keeps s s.recordPosted := by
  simp only [State.recordPosted]
  split
  · exact Keeps.refl s
  · rename_i r rest _
    refine (Keeps.of_frame (s.frame_writeRecord s.journal.head r.words.toList 16)).trans ?_
    refine (Keeps.of_frame (State.frame_journalQueue _ rest)).trans ?_
    refine Keeps.trans (Keeps.updLine (n := r.line) (f := fun r => { r with recordPending := false })
      .of_eq) ?_
    refine Keeps.trans ?_ ((Keeps.give _ _).trans (Keeps.evaluateGrants _))
    exact Keeps.setRing (fun _ => advance_lt _ _) id

theorem Keeps.writeTail (s : State) (w : Word) : Keeps s (s.writeTail w) := by
  refine Keeps.ite (fun hw => Keeps.ite (fun _ => Keeps.refl s) fun _ => ?_) fun _ => Keeps.refuse s _ _
  exact Keeps.trans (Keeps.setRing (h := s.journal.head) id fun _ => .inl hw.1)
    (Keeps.evaluateGrants _)

theorem Keeps.microsecond (s : State) : Keeps s s.microsecond := Keeps.of_frame s.frame_microsecond

/-! ## The other cells -/

theorem Keeps.writeAttention (s : State) (w : Word) : Keeps s (s.writeAttention w) :=
  Keeps.of_frame (s.frame_writeAttention w)

theorem Keeps.setAttention (s : State) (a : Attention) : Keeps s (s.setAttention a) :=
  Keeps.of_frame (s.frame_setAttention a)

theorem Keeps.writeStaging (s : State) (i : Fin 16) (w : Word) : Keeps s (s.writeStaging i w) :=
  Keeps.of_frame (s.frame_writeStaging i w)

theorem Keeps.startCensus (s : State) (w : Word) : Keeps s (s.startCensus w) :=
  Keeps.setCensus (Nat.zero_le _)

theorem Keeps.writePut (s : State) (n : LineNo) (w : Word) : Keeps s (s.writePut n w) :=
  (Keeps.writeArea s (putOffset n) w).trans (Keeps.updLine .of_eq)

theorem Keeps.writeTake (s : State) (n : LineNo) (w : Word) : Keeps s (s.writeTake n w) :=
  (Keeps.writeArea s (takeOffset n) w).trans (Keeps.updLine .of_eq)

end Sys2Proof.Machine
end

section
/-!
SUPPORT. What the bus passage and the resets keep, and with them every step.
-/

namespace Sys2Proof.Machine

-- One proof after another: a default `by` argument waits for every earlier proof of the text.
set_option Elab.async false

/-! ## The taking of a cycle (R157, R158) -/

theorem Keeps.writeRefused (s : State) (m : Master) (o : Offset) : Keeps s (s.writeRefused m o) :=
  Keeps.of_frame (s.frame_writeRefused m o)

theorem Keeps.processorRead (s : State) (o : Offset) : Keeps s (s.processorRead o).state := by
  simp only [State.processorRead]
  split
  case h_1 => exact Keeps.of_frame s.frame_readAttention
  case h_7 => exact Keeps.of_frame s.frame_readLatch
  case h_8 => exact Keeps.readCensus s
  case h_20 => exact Keeps.readStatus0 s _
  all_goals exact Keeps.refl s

theorem Keeps.scannerRead (s : State) (o : Offset) : Keeps s (s.scannerRead o).state := by
  simp only [State.scannerRead]
  split
  · split
    · exact Keeps.refl s
    · exact Keeps.readCommand s _
  all_goals exact Keeps.refl s

theorem Keeps.processorWrite (s : State) (o : Offset) (w : Word) :
    Keeps s (s.processorWrite o w).state := by
  simp only [State.processorWrite]
  split
  · exact Keeps.processorCommand s _ w
  · exact Keeps.writeAttention s w
  · exact Keeps.setAttention s _
  · exact Keeps.setAttention s _
  · exact Keeps.writePlanStart s w
  · exact Keeps.writePlanWord s w
  · exact Keeps.writeTail s w
  · exact Keeps.startCensus s w
  · exact Keeps.writeCommit s w
  · exact Keeps.writeClockMinute s w
  · exact Keeps.writeClockDay s w
  · exact Keeps.writeTariff s _ _ w
  · exact Keeps.writeBandStart s _ w
  · exact Keeps.writeWeekend s w
  · rename_i c _
    simp only [takenWrite, written]
    exact Keeps.writePermit s c w
  · exact Keeps.writeSetting s _ w
  · exact Keeps.writeStaging s _ w
  · exact Keeps.writePut s _ w
  all_goals first
    | exact Keeps.writeArea s o w
    | exact Keeps.writeRefused s .processor o

theorem Keeps.sweepMarked (s : State) (w : Word) : Keeps s (s.sweepMarked w) :=
  Keeps.of_frame (s.frame_sweepMarked w)

theorem Keeps.scannerWrite (s : State) (o : Offset) (w : Word) :
    Keeps s (s.scannerWrite o w).state := by
  simp only [State.scannerWrite]
  split
  · exact Keeps.acknowledge s _ w
  · exact Keeps.statusWritten s _ w
  · exact Keeps.sweepMarked s w
  · exact Keeps.receive s _ _ w
  · exact Keeps.writeTake s _ w
  all_goals first
    | exact Keeps.writeArea s o w
    | exact Keeps.writeRefused s .scanner o

theorem Keeps.classify (s : State) (c : Cycle) : Keeps s (s.classify c).state := by
  simp only [State.classify]
  split
  · rename_i o _
    simp only [State.takeInside]
    split
    · exact Keeps.processorRead s o
    · exact Keeps.scannerRead s o
    · exact Keeps.processorWrite s o _
    · exact Keeps.scannerWrite s o _
  · simp only [State.takeOutside]
    split
    · exact Keeps.of_frame (s.frame_writeMem _ _)
    · exact Keeps.refl s

theorem Keeps.setOwner (s : State) (o : Owner) : Keeps s (s.setOwner o) :=
  Keeps.of_frame (s.frame_setOwner o)

theorem Keeps.takeCycle (s : State) (c : Cycle) : Keeps s (s.takeCycle c) :=
  (Keeps.classify s c).trans (Keeps.setOwner _ _)

/-! ## The memory-side arbiter (R159, R160) -/

theorem Keeps.arrive (s : State) (c : Cycle) : Keeps s (s.arrive c) := by
  refine Keeps.ite (fun _ => Keeps.refl s) fun _ => ?_
  refine (Keeps.of_frame (s.frame_setBrdy c.master false)).trans
    ((Keeps.of_frame (State.frame_closeWindowAt _ c)).trans ?_)
  exact Keeps.ite (fun _ => Keeps.takeCycle _ c) fun _ => Keeps.of_frame (State.frame_enqueueCycle _ c)

theorem State.frame_setWaiting (s : State) (l : List Cycle) :
    SameBut [.memorySide] s { s with bus := { s.bus with waiting := l } } := by
  intro b hb; cases b <;> first | exact absurd (by decide) hb | simp [Block.same]

theorem Keeps.releaseMemorySide (s : State) : Keeps s s.releaseMemorySide := by
  refine (Keeps.setOwner s .free).trans ?_
  simp only [State.releaseMemorySide]
  split
  · rename_i c rest _
    exact (Keeps.of_frame (State.frame_setWaiting _ rest)).trans (Keeps.takeCycle _ c)
  · exact Keeps.of_frame (State.frame_startPosting _)

theorem Keeps.answerCycle (s : State) (c : Cycle) (data : Word) : Keeps s (s.answerCycle c data) :=
  (Keeps.of_frame (s.frame_setBrdy c.master true)).trans
    (Keeps.ite (fun _ => Keeps.refl _) fun _ => Keeps.of_frame (State.frame_setBd _ _))

theorem Keeps.endCycle (s : State) : Keeps s s.endCycle := by
  simp only [State.endCycle]
  split
  · exact Keeps.trans (Keeps.ite (fun _ => Keeps.refl s) fun _ => Keeps.answerCycle s _ _)
      (Keeps.releaseMemorySide _)
  · exact Keeps.refl s
  · exact Keeps.refl s

theorem Keeps.postingCompleted (s : State) : Keeps s s.postingCompleted :=
  Keeps.ite (fun _ => (Keeps.recordPosted s).trans
    ((Keeps.of_frame (State.frame_windowAfterPosting _)).trans (Keeps.releaseMemorySide _)))
    fun _ => Keeps.refl s

/-! ## The state after reset (R23, R39, R64, R84, R99, R121, R140, R154, R165) -/

theorem State.line_reset (n : LineNo) : State.reset.line n = LineRecord.reset := by
  simp [State.reset, State.line]

theorem State.ctx_reset (k : CtxNo) : State.reset.ctx k = Context.fresh none := by
  simp [State.reset, State.ctx]

theorem State.slot_reset (i : SlotNo) : State.reset.slot i = none :=
  Vector.getElem_replicate (n := 2048) (a := none) i.isLt

theorem State.session_reset (n : LineNo) : State.reset.session n = none := by
  simp [State.reset, State.session, Meter.reset]

theorem State.rate_reset (b : BandNo) (v : SpeedNo) : State.reset.rate b v = 0 := by
  simp [State.reset, State.rate, Meter.reset]

theorem State.bandStart_reset (b : BandNo) : State.reset.meter.bandStart b = 0 := by
  simp [State.reset, Meter.bandStart, Meter.reset]

theorem State.permit_reset (c : AccountClass) :
    State.reset.permit c = { signOn := 0xF#4, hold := 0xF#4 } := by
  simp [State.reset, State.permit, Meter.reset]

theorem budgetsBalance_reset : BudgetsBalance State.reset := fun i a ha => by
  simp [State.slot_reset] at ha

theorem namesUnique_reset : NamesUnique State.reset := fun i j a b ha => by
  simp [State.slot_reset] at ha

theorem fillUnprintable_reset : FillUnprintable State.reset := by
  simp only [FillUnprintable, State.reset]
  decide

theorem wellLinked_reset : WellLinked State.reset := by
  refine wellLinked_iff.mpr ⟨List.nodup_nil, fun n => ?_⟩
  have queue : State.reset.answerQueue = [] := rfl
  simp [LineLinked, State.line_reset, State.ctx_reset, State.session_reset, queue, LineRecord.reset,
    Context.fresh, LineState.inDialogue]

theorem planInRange_reset : PlanInRange State.reset := by
  refine ⟨Nat.zero_le _, Nat.zero_le _, fun k hk => ?_, fun _ => ⟨?_, fun k hk => ?_, fun n => ?_, ?_, ?_⟩⟩
  · cases hk
  · exact PlanState.noConfusion
  · cases hk
  · simp [State.line_reset, LineRecord.reset]
  · simp [State.reset, Directory.reset]
  · simp [State.reset, Directory.reset]

theorem inRange_reset : InRange State.reset := by
  refine ⟨fun n => ?_, fun k => ?_, ⟨fun i a ha => ?_, Nat.zero_le _⟩, ?_, fun n x hx => ?_, ?_,
    planInRange_reset⟩
  · simp [State.line_reset, LineRecord.reset]
  · simp [State.ctx_reset, Context.fresh]
  · simp [State.slot_reset] at ha
  · refine ⟨by decide, by decide, by decide, by decide, fun b => ?_, fun b v => ?_⟩
    · simp [State.bandStart_reset]
    · simp [State.rate_reset]
  · simp [State.session_reset] at hx
  · exact ⟨Nat.zero_le _, Nat.zero_le _, .inr rfl, .inr rfl⟩

theorem lawful_reset : Lawful State.reset := ⟨wellLinked_reset, budgetsBalance_reset, inRange_reset⟩

/-! ## The resets (R164, R177) -/

/-- The invariants hold of a power-on reset part, and so go over to it from any. -/
theorem Keeps.poweredOn (s : State) : Keeps s s.poweredOn := by
  have frame : SameBut [.strap, .mem, .freeUses, .pending, .porn] State.reset s.poweredOn := by
    intro b hb
    cases b <;> first
      | exact absurd (by decide) hb
      | simp [Block.same, State.poweredOn, State.reset, Pins.reset, BusUnit.reset]
  obtain ⟨budgets, fill, names, links, range⟩ := Keeps.of_frame frame
  exact ⟨fun _ => budgets budgetsBalance_reset, fun _ => fill fillUnprintable_reset,
    fun _ => names namesUnique_reset, fun _ => links wellLinked_reset, fun _ => range lawful_reset⟩

/-- A bus reset withdraws requests and the census only (R84, R154, R164). -/
theorem Keeps.busResetTaken (s : State) : Keeps s s.busResetTaken := by
  refine Keeps.of_frame s.frame_busResetTaken (slots := fun _ hs => ⟨hs.inRange.slots.1, Nat.zero_le _⟩)
    (unanswered := fun _ _ _ hu => ⟨hu.1, fun q hq => hu.2.1 q ?_, hu.2.2⟩)
  exact (List.mem_filter.mp hq).1

theorem Keeps.arrivals (s : State) (cs : List Cycle) : Keeps s (cs.foldl State.arrive s) := by
  induction cs generalizing s with
  | nil => exact Keeps.refl s
  | cons c cs ih => exact (Keeps.arrive s c).trans (ih _)

theorem Keeps.powerReleased (s : State) (straps : BitVec 3) (p q : Bool) :
    Keeps s (s.released straps p q) := by
  refine Keeps.trans (Keeps.of_frame (bs := [.strap, .porn]) ?_) (Keeps.arrivals _ _)
  intro b hb; cases b <;> first | exact absurd (by decide) hb | simp [Block.same]

/-! ## Every step -/

theorem Keeps.refreshAttn (s : State) : Keeps s s.refreshAttn := Keeps.of_frame s.frame_refreshAttn

/-- An event keeps what its effect keeps. -/
theorem Keeps.event {f : State → State} {s t : State} (h : ∀ s, Keeps s (f s)) (ht : event f s = .next t) :
    Keeps s t := by
  cases ht
  exact Keeps.ite (fun _ => (h s).trans (Keeps.refreshAttn _)) fun _ => Keeps.refl s

theorem Keeps.readEvent {f : State → Word × State} {s t : State} (h : ∀ s, Keeps s (f s).2)
    (ht : readEvent f s = .next t) : Keeps s t :=
  Keeps.event (fun s => (h s).trans (Keeps.of_frame (State.frame_setBd _ _))) ht

/-- Every command keeps the invariants. -/
theorem Keeps.exec {i : Instr} {s t : State} (h : exec i s = .next t) : Keeps s t := by
  cases i with
  | statusWrite n w => exact .event (fun s => Keeps.statusWritten s n w) h
  | receiveEntry n j w => exact .event (fun s => Keeps.receive s n j w) h
  | commandWordRead n => exact .readEvent (fun s => Keeps.readCommand s n) h
  | acknowledge n w => exact .event (fun s => Keeps.acknowledge s n w) h
  | processorHangUp n => exact .event (fun s => Keeps.processorCommand s n hangUpCode) h
  | transmitPutWrite n w => exact .event (fun s => Keeps.writePut s n w) h
  | transmitTakeWrite n w => exact .event (fun s => Keeps.writeTake s n w) h
  | carrierDoubtExpiry n => exact .event (fun s => Keeps.doubtExpired s n) h
  | politeTimeExpiry n =>
    exact .event (f := fun s => s.updLine n fun r => { r with forced := politeExpired r.forced })
      (fun s => Keeps.updLine .of_eq) h
  | clearingTimeExpiry n => exact .event (fun s => Keeps.clearingExpired s n) h
  | modeLoad n w => exact .event (fun s => Keeps.writeSetting s n w) h
  | hangRequest n w => exact .event (fun s => Keeps.writeSetting s n w) h
  | sessionStatusRead n => exact .readEvent (fun s => Keeps.readStatus0 s n) h
  | ringGoneExpiry n => exact .event (fun s => Keeps.ringGoneExpired s n) h
  | answerTimerExpiry n => exact .event (fun s => Keeps.answerExpired s n) h
  | signOnTimeExpiry k => exact .event (fun s => Keeps.signOnExpired s k) h
  | requestServiceStart => exact .event (fun s => Keeps.startService s) h
  | lookupCompletion => exact .event (fun s => Keeps.lookupCompleted s) h
  | lockEnd j => exact .event (fun s => Keeps.lockEnd s j) h
  | censusStart w => exact .event (fun s => Keeps.startCensus s w) h
  | censusRead => exact .readEvent (fun s => Keeps.readCensus s) h
  | stagingWrite j w => exact .event (fun s => Keeps.writeStaging s j w) h
  | commitWrite w => exact .event (fun s => Keeps.writeCommit s w) h
  | commitCompletion => exact .event (fun s => Keeps.commitCompleted s) h
  | shortTick => exact .event (fun s => Keeps.shortTicked s) h
  | secondTick => exact .event (fun s => Keeps.secondTicked s) h
  | graceExpiry n => exact .event (fun s => Keeps.graceExpired s n) h
  | minuteTick => exact .event (fun s => Keeps.minuteTicked s) h
  | idleLimit n => exact .event (fun s => Keeps.idleExpired s n) h
  | clockMinuteWrite w => exact .event (fun s => Keeps.writeClockMinute s w) h
  | clockDayWrite w => exact .event (fun s => Keeps.writeClockDay s w) h
  | bandStartWrite b w => exact .event (fun s => Keeps.writeBandStart s b w) h
  | weekendWrite w => exact .event (fun s => Keeps.writeWeekend s w) h
  | tariffWrite b v w => exact .event (fun s => Keeps.writeTariff s b v w) h
  | permitWrite c w => exact .event (fun s => Keeps.writePermit s c w) h
  | sweepMarker w => exact .event (fun s => Keeps.sweepMarked s w) h
  | postingStart => exact .event (fun s => Keeps.of_frame s.frame_startPosting) h
  | postingCompletion => exact .event (fun s => Keeps.postingCompleted s) h
  | windowTimeOut => exact .event (fun s => Keeps.of_frame s.frame_windowTimedOut) h
  | tailWrite w => exact .event (fun s => Keeps.writeTail s w) h
  | poll => exact .readEvent (fun s => Keeps.of_frame s.frame_readAttention) h
  | nonSpecificDone => exact .event (fun s => Keeps.setAttention s s.attention.doneFirst) h
  | specificDone k => exact .event (fun s => Keeps.setAttention s (s.attention.doneClass k)) h
  | rotateOnNonSpecificDone => exact .event (fun s => Keeps.setAttention s s.attention.rotateFirst) h
  | rotateOnSpecificDone k => exact .event (fun s => Keeps.setAttention s (s.attention.rotateClass k)) h
  | setLowest k => exact .event (fun s => Keeps.setAttention s (s.attention.setLowest k)) h
  | maskWrite w => exact .event (f := fun s => s.writeMask w) (fun s => Keeps.setAttention s _) h
  | modeWrite w => exact .event (f := fun s => s.writeMode w) (fun s => Keeps.setAttention s _) h
  | masterCycleArrival c =>
    cases hp : s.pins.porn with
    | true =>
      have running : Machine.exec (.masterCycleArrival c) s = Machine.event (fun s => s.arrive c) s :=
        if_pos hp
      exact .event (fun s => Keeps.arrive s c) (running.symm.trans h)
    | false =>
      have held : Machine.exec (.masterCycleArrival c) s = .next (s.present c) :=
        if_neg (by simp [hp])
      cases held.symm.trans h
      exact Keeps.of_frame (s.frame_present c)
  | masterCycleEnd => exact .event (fun s => Keeps.endCycle s) h
  | writeRefused m o => exact .event (fun s => Keeps.writeRefused s m o) h
  | latchRead => exact .readEvent (fun s => Keeps.of_frame s.frame_readLatch) h
  | planStart w => exact .event (fun s => Keeps.writePlanStart s w) h
  | planWord w => exact .event (fun s => Keeps.writePlanWord s w) h
  | powerOnReset =>
    cases h
    exact Keeps.poweredOn s
  | powerOnResetRelease straps p q =>
    cases h
    exact Keeps.ite (fun _ => Keeps.refl s) fun _ =>
      (Keeps.powerReleased s straps p q).trans (Keeps.refreshAttn _)
  | busReset => exact .event (fun s => Keeps.busResetTaken s) h

theorem Keeps.step {s t : State} (h : step s = .next t) : Keeps s t := by
  simp only [Machine.step] at h
  split at h
  · rename_i c rest _
    refine Keeps.trans (Keeps.of_frame (bs := [.pending]) ?_) (Keeps.exec h)
    intro b hb; cases b <;> first | exact absurd (by decide) hb | simp [Block.same]
  · cases h
    exact Keeps.microsecond s

end Sys2Proof.Machine
end

section
/-!
PROOFS. Every step keeps the invariants, and the state after reset meets them.
-/

namespace Sys2Proof.Machine

-- One proof after another: a default `by` argument waits for every earlier proof of the text.
set_option Elab.async false

/-- Settles O57: each command's effect is a chain of elementary changes that keep the invariants. -/
theorem everyStepKeepsValuesLawful : Obligations.EveryStepKeepsValuesLawful :=
  ⟨fun _ _ hs h => (Keeps.step h).budgets hs, fun _ _ hs h => (Keeps.step h).fill hs,
    fun _ _ hs h => (Keeps.step h).names hs,
    fun _ _ hl hb hr h => (Keeps.step h).range ⟨hl, hb, hr⟩⟩

/-- Settles O58: each command's effect is a chain of elementary changes that keep the links. -/
theorem everyStepKeepsTheLinks : Obligations.EveryStepKeepsTheLinks :=
  fun _ _ hs h => (Keeps.step h).links hs

theorem State.queue_reset (k : ClassNo) : State.reset.attention.queue k = [] :=
  Vector.getElem_replicate (n := 8) (a := []) k.isLt

theorem State.served_reset (k : ClassNo) : State.reset.attention.served k = none :=
  Vector.getElem_replicate (n := 8) (a := none) k.isLt

theorem subjectsOnce_reset : SubjectsOnce State.reset := by
  intro k
  simp [State.queue_reset, State.served_reset]

theorem creditBounded_reset : CreditBounded State.reset :=
  ⟨by decide, fun k h => by cases h⟩

theorem ringPlaced_reset : RingPlaced State.reset :=
  ⟨fun h => absurd h (by decide), fun _ => ⟨rfl, rfl, rfl⟩⟩

theorem sessionsCounted_reset : SessionsCounted State.reset := by
  refine ⟨fun n x hx => ?_, fun i a ha => ?_⟩
  · simp [State.session_reset] at hx
  · simp [State.slot_reset] at ha

theorem recordsPending_reset : RecordsPending State.reset := by
  refine ⟨List.nodup_nil, fun n => ?_, fun n hn => ?_⟩
  · have queue : State.reset.journal.queue = [] := rfl
    simp [State.line_reset, LineRecord.reset, queue]
  · simp [State.line_reset, LineRecord.reset] at hn

/-- Settles O54, invariant by invariant: the records after reset are all alike and all at rest. -/
theorem invariantsHoldAtReset : Obligations.InvariantsHoldAtReset :=
  ⟨rfl, rfl, subjectsOnce_reset, budgetsBalance_reset, fillUnprintable_reset,
    inRange_reset, namesUnique_reset, wellLinked_reset, creditBounded_reset, ringPlaced_reset,
    sessionsCounted_reset, recordsPending_reset⟩

/-- Settles O2: each register file's reset value by its lemma, the single fields by evaluation. -/
theorem resetHoldsTheStatedValues : Obligations.ResetHoldsTheStatedValues := by
  refine ⟨State.line_reset, rfl, fun k => ?_, rfl, State.slot_reset, rfl, rfl, rfl, rfl, rfl, rfl,
    fun i => ?_, rfl, rfl, rfl, rfl, rfl, rfl, rfl, State.rate_reset, State.bandStart_reset, rfl,
    State.permit_reset, rfl, State.session_reset, rfl,
    fun k => ⟨State.queue_reset k, State.served_reset k⟩, rfl, rfl, rfl, rfl, rfl, rfl, rfl, rfl, rfl,
    rfl, rfl⟩
  · simp [State.ctx_reset, Context.fresh]
  · have record : State.reset.directory.staging.record = Staged.empty := rfl
    simp [record, Staged.empty]

end Sys2Proof.Machine
end

section
/-!
SUPPORT. What an event makes of a running part: the completion of a command from its effect, and the
effects that replace one line record, write one word of memory, or do both.
-/

namespace Sys2Proof.Machine

-- One proof after another: a default `by` argument waits for every earlier proof of the text.
set_option Elab.async false

/-! ## Completion (R146, R177) -/

theorem Completes.of_event {i : Instr} {s : State} {post : State → Prop} (f : State → State)
    (hexec : exec i s = event f s) (h : Running s) (hp : post (f s).refreshAttn) :
    Completes i s post := ⟨_, hexec.trans (event_running f h), hp⟩

theorem Completes.of_readEvent {i : Instr} {s : State} {post : State → Prop}
    (f : State → Word × State) (hexec : exec i s = readEvent f s) (h : Running s)
    (hp : post ((f s).2.setBd (f s).1).refreshAttn) : Completes i s post :=
  Completes.of_event (fun s => (f s).2.setBd (f s).1) hexec h hp

theorem Completes.imp {i : Instr} {s : State} {p q : State → Prop} (h : Completes i s p)
    (hpq : ∀ t, p t → q t) : Completes i s q := by
  obtain ⟨t, ht, hp⟩ := h
  exact ⟨t, ht, hpq t hp⟩

/-! ## One line record replaced -/

@[simp] theorem State.setLine_setLine (s : State) (n : LineNo) (r r' : LineRecord) :
    (s.setLine n r).setLine n r' = s.setLine n r' := by
  simp [State.setLine]

@[simp] theorem State.setLine_line (s : State) (n : LineNo) : s.setLine n (s.line n) = s := by
  have h : s.lines.set n (s.line n) = s.lines := by
    ext i hi
    simp only [State.line, Vector.getElem_set]
    split
    · simp_all
    · rfl
  rw [State.setLine, h]

theorem State.updLine_eq (s : State) (n : LineNo) (f : LineRecord → LineRecord) :
    s.updLine n f = s.setLine n (f (s.line n)) := rfl

theorem State.setLine_writeArea (s : State) (n : LineNo) (r : LineRecord) (o : Offset) (v : Word) :
    (s.setLine n r).writeArea o v = (s.writeArea o v).setLine n r := rfl

theorem State.otherWords_writeArea (s : State) (o : Offset) (v : Word) :
    OtherWords (s.areaAddr o) s (s.writeArea o v) := fun _ h => s.readMem_writeArea_other o v h

theorem State.otherContexts_updCtx (s : State) (k : CtxNo) (f : Context → Context) :
    OtherContexts k s (s.updCtx k f) := fun _ h => s.ctx_updCtx_other f h

theorem State.otherSessions_updSession (s : State) (n : LineNo) (f : Session → Session) :
    OtherSessions n s (s.updSession n f) := fun _ h => s.session_updSession_other f h

section
variable {i : Instr} {s : State} {f : State → State} {n : LineNo} {r : LineRecord} {o : Offset}
  {w : Word}

/-- An event without an effect. -/
theorem Completes.unchanged (hexec : exec i s = event f s) (h : Running s) (hf : f s = s) :
    Completes i s (SameBut [] s) :=
  Completes.of_event f hexec h (by rw [hf]; exact s.frame_refreshAttn)

/-- An event that replaces line n's record. -/
theorem Completes.lineSet (hexec : exec i s = event f s) (h : Running s) (hf : f s = s.setLine n r) :
    Completes i s fun t => t.line n = r ∧ OtherLines n s t ∧ SameBut [.lines] s t := by
  refine Completes.of_event f hexec h ?_
  rw [hf]
  exact ⟨by simp, s.otherLines_setLine n r, (s.frame_setLine n r).step (State.frame_refreshAttn _)⟩

/-- An event that replaces line n's record while the line leaves the answer queue. -/
theorem Completes.lineLeft (hexec : exec i s = event f s) (h : Running s)
    (hf : f s = (s.leaveQueue n).setLine n r) :
    Completes i s fun t => t.line n = r ∧ OtherLines n s t
      ∧ t.answerQueue = s.answerQueue.filter (· != n) ∧ SameBut [.lines, .answerQueue] s t := by
  refine Completes.of_event f hexec h ?_
  rw [hf]
  refine ⟨by simp, fun m hm => ?_, rfl, ?_⟩
  · exact (State.line_setLine_other _ r hm).trans (State.line_updLine_other _ _ hm)
  · exact ((s.frame_leaveQueue n).step (State.frame_setLine _ n r)).step (State.frame_refreshAttn _)

/-- An event that passes a word to memory. -/
theorem Completes.passed (hexec : exec i s = event f s) (h : Running s) (hm : MemoryCanonical s)
    (hf : f s = s.writeArea o w) :
    Completes i s fun t => t.readMem (s.areaAddr o) = w ∧ OtherWords (s.areaAddr o) s t
      ∧ SameBut [.mem] s t := by
  refine Completes.of_event f hexec h ?_
  rw [hf]
  exact ⟨s.readMem_writeArea_same o w hm, s.otherWords_writeArea o w,
    (s.frame_writeArea o w).step (State.frame_refreshAttn _)⟩

/-- An event that passes a word to memory and replaces line n's record. -/
theorem Completes.passedLine (hexec : exec i s = event f s) (h : Running s)
    (hm : MemoryCanonical s) (hf : f s = (s.writeArea o w).setLine n r) :
    Completes i s fun t => t.line n = r ∧ OtherLines n s t ∧ t.readMem (s.areaAddr o) = w
      ∧ OtherWords (s.areaAddr o) s t ∧ SameBut [.mem, .lines] s t := by
  refine Completes.of_event f hexec h ?_
  rw [hf]
  refine ⟨by simp, fun m hmn => ?_, s.readMem_writeArea_same o w hm, s.otherWords_writeArea o w, ?_⟩
  · exact State.line_setLine_other (s.writeArea o w) r hmn
  · exact (((s.frame_writeArea o w).mono (by decide)).step (State.frame_setLine _ n r)).step
      (State.frame_refreshAttn _)

end

end Sys2Proof.Machine
end

section
/-!
PROOFS. The timers and cells of a line: expiries, the command-word handshake, the transmit, setting and
status cells.
-/

namespace Sys2Proof.Machine

-- One proof after another: a default `by` argument waits for every earlier proof of the text.
set_option Elab.async false

/-! ## Expiries (R3, R8, R34, R42, R114, R116) -/

theorem State.doubtExpired_of_ne {s : State} {n : LineNo} (h : (s.line n).doubt ≠ some 0) :
    s.doubtExpired n = s := if_neg h

theorem State.answerExpired_of_not {s : State} {n : LineNo}
    (h : (s.line n).state ≠ .answering ∨ (s.line n).answer ≠ some 0) : s.answerExpired n = s :=
  if_neg fun ⟨hst, ha⟩ => h.elim (· hst) (· ha)

theorem State.signOnExpired_of_not {s : State} {k : CtxNo}
    (h : (s.ctx k).holder = none ∨ (s.ctx k).signOnTime ≠ some 0) : s.signOnExpired k = s := by
  simp only [State.signOnExpired]
  split
  · rename_i n hn
    exact if_neg fun ht => h.elim (by simp [hn]) (· ht)
  · rfl

theorem State.graceExpired_of_running {s : State} {n : LineNo}
    (h : ∀ x c, s.session n = some x → x.grace = some c → 0 < c.left) : s.graceExpired n = s := by
  simp only [State.graceExpired]
  split
  · rfl
  · rename_i x hx
    split
    · rfl
    · rename_i c hc
      exact if_neg (Nat.pos_iff_ne_zero.mp (h x c hx hc))

theorem State.idleExpired_of_not {s : State} {n : LineNo}
    (h : ∀ x a, s.session n = some x → s.slot x.slot = some a →
      a.cls = .operator ∨ (s.line n).idle ≠ s.plan.idleLimit) : s.idleExpired n = s := by
  simp only [State.idleExpired]
  split
  · rfl
  · rename_i x hx
    split
    · rfl
    · rfl
    · rename_i c hno hc
      obtain ⟨a, ha, rfl⟩ := Option.map_eq_some_iff.mp hc
      exact if_neg ((h x a hx ha).resolve_left hno)

/-- Settles O22: each expiry's own test fails. -/
theorem expiriesNotDueChangeNothing : Obligations.ExpiriesNotDueChangeNothing := by
  intro n k s hrun
  refine ⟨fun h => ?_, fun h => ?_, fun h => ?_, fun h => ?_, fun h => ?_⟩
  · exact .unchanged (f := fun s => s.doubtExpired n) rfl hrun (State.doubtExpired_of_ne h)
  · exact .unchanged (f := fun s => s.answerExpired n) rfl hrun (State.answerExpired_of_not h)
  · exact .unchanged (f := fun s => s.signOnExpired k) rfl hrun (State.signOnExpired_of_not h)
  · exact .unchanged (f := fun s => s.graceExpired n) rfl hrun (State.graceExpired_of_running h)
  · exact .unchanged (f := fun s => s.idleExpired n) rfl hrun (State.idleExpired_of_not h)

/-! ## The timers that end no call (R11, R17, R26) -/

theorem LineRecord.clearingExpired_due {r : LineRecord} {c : Clearing} (hst : r.state = .clearing)
    (hc : r.clearing = some c) (h0 : c.timeLeft = 0) :
    r.clearingExpired =
      { r with sticky := r.sticky ||| noAckMark, forced := none, clearing := none }.toMode
        c.modeAfter := by
  simp [LineRecord.clearingExpired, LineRecord.endClearing, hst, hc, h0]

theorem LineRecord.clearingExpired_of_not {r : LineRecord}
    (h : r.state ≠ .clearing ∨ ∀ c, r.clearing = some c → 0 < c.timeLeft) :
    r.clearingExpired = r := by
  simp only [LineRecord.clearingExpired]
  split
  · rename_i c hst hc
    exact if_neg (Nat.pos_iff_ne_zero.mp (h.resolve_left (fun hne => hne hst) c hc))
  · rfl

theorem politeExpired_of_not {slot : Option Forced}
    (h : ∀ f, slot = some f → f.politeLeft ≠ some 0) : politeExpired slot = slot := by
  cases slot with
  | none => rfl
  | some f => exact if_neg (h f rfl)

/-- Settles O16: the three expiries by the tests they make on the line's record. -/
theorem lineTimersExpire : Obligations.LineTimersExpire := by
  refine ⟨fun n s hrun => ⟨fun hst h0 => ?_, fun h => ?_⟩,
    fun n s hrun => ⟨fun f hf h0 => ?_, fun h => ?_, fun c hst hc h0 => ?_, fun h => ?_⟩⟩
  · refine (Completes.lineLeft (n := n) (f := fun s => s.ringGoneExpired n)
      (r := { s.line n with
        state := .idle, ringGone := none, lastCarrier := false, lastRing := false,
        missed := min ((s.line n).missed + 1) 15 }) rfl hrun ?_).imp
      fun t ⟨hl, ho, hq, hf⟩ => ⟨hq, hl, ho, hf⟩
    have due : s.ringGoneExpired n = (s.leaveQueue n).updLine n fun r =>
        { r.toMode .watched with missed := min (r.missed + 1) 15 } := if_pos ⟨hst, h0⟩
    rw [due, State.updLine_eq, State.leaveQueue, State.line_updLine_same]
    rfl
  · exact .unchanged (f := fun s => s.ringGoneExpired n) rfl hrun
      (if_neg fun ⟨hst, h0⟩ => h.elim (· hst) (· h0))
  · refine Completes.lineSet
      (f := fun s => s.updLine n fun r => { r with forced := politeExpired r.forced }) rfl hrun ?_
    simp [State.updLine_eq, hf, politeExpired, h0]
  · refine Completes.unchanged
      (f := fun s => s.updLine n fun r => { r with forced := politeExpired r.forced }) rfl hrun ?_
    rw [State.updLine_eq, politeExpired_of_not h]
    exact s.setLine_line n
  · refine Completes.lineSet (f := fun s => s.updLine n LineRecord.clearingExpired) rfl hrun ?_
    rw [State.updLine_eq, LineRecord.clearingExpired_due hst hc h0]
    cases c.modeAfter <;> rfl
  · refine Completes.unchanged (f := fun s => s.updLine n LineRecord.clearingExpired) rfl hrun ?_
    rw [State.updLine_eq, LineRecord.clearingExpired_of_not h]
    exact s.setLine_line n

end Sys2Proof.Machine
end

section
/-!
SUPPORT. Words made of fields: a packed word is the fields one beside the other, and the regions of the
offsets that the line-area map names.
-/

namespace Sys2Proof.Machine

/-! ## Packed words (R170 to R172) -/

/-- Two fields beside each other, moved to a place: the lower one there, the upper one above it. -/
theorem setWidth_append_shift {a b : Nat} (x : BitVec a) (y : BitVec b) (p : Nat) :
    (x ++ y).setWidth 16 <<< p = y.setWidth 16 <<< p ||| x.setWidth 16 <<< (b + p) := by
  ext i hi
  simp only [BitVec.getElem_shiftLeft, BitVec.getElem_or, BitVec.getElem_setWidth,
    BitVec.getLsbD_append]
  by_cases hp : i < p
  · simp [hp, Nat.lt_add_left b hp]
  · by_cases hb : i - p < b
    · simp [hp, hb, show i < b + p by omega]
    · simp [hp, hb, show ¬ i < b + p by omega, show i - p - b = i - (b + p) by omega,
        BitVec.getLsbD_of_ge y (i - p) (by omega)]

theorem setWidth_shift_zero (x : Word) : x.setWidth 16 <<< 0 = x := by simp

/-- A number below the size of a field fills that field. -/
theorem ofNat_setWidth {v k : Nat} (h : v < 2 ^ k) :
    BitVec.ofNat 16 v = (BitVec.ofNat k v).setWidth 16 := by
  apply BitVec.eq_of_toNat_eq
  simp [Nat.mod_eq_of_lt h]

theorem ofNat_toNat_bool (b : Bool) :
    BitVec.ofNat 16 b.toNat = (BitVec.ofBool b).setWidth 16 := by cases b <;> rfl

theorem packWord_cons (v p : Nat) (fields : List (Nat × Nat)) :
    packWord ((v, p) :: fields) = BitVec.ofNat 16 v <<< p ||| packWord fields := by
  have go : ∀ (fs : List (Nat × Nat)) (a : Word),
      fs.foldl (fun w f => w ||| (BitVec.ofNat 16 f.1 <<< f.2)) a = a ||| packWord fs := by
    intro fs
    induction fs with
    | nil => intro a; simp [packWord]
    | cons f fs ih =>
      intro a
      simp only [packWord, List.foldl_cons] at ih ⊢
      rw [ih, ih (0#16 ||| _), BitVec.zero_or, BitVec.or_assoc]
  have h := go fields (BitVec.ofNat 16 v <<< p)
  rw [← h]
  simp [packWord]

theorem packWord_nil : packWord [] = 0#16 := rfl

/-! ## The regions of the line area (R157) -/

theorem region_put (n : LineNo) : region (putOffset n) = .transmitPut n := by
  revert n; decide

theorem region_take (n : LineNo) : region (takeOffset n) = .transmitTake n := by
  revert n; decide

end Sys2Proof.Machine
end

section
/-!
PROOFS. The command-word handshake, the transmit cells and the reads of a line's status (R10 to R14, R21).
-/

namespace Sys2Proof.Machine

-- One proof after another: a default `by` argument waits for every earlier proof of the text.
set_option Elab.async false

/-! ## Reads of a command word (R2, R11) -/

section
variable {i : Instr} {s : State} {f : State → Word × State} {n : LineNo} {r : LineRecord} {w : Word}

/-- A read that returns a word and changes nothing. -/
theorem Completes.readUnchanged (hexec : exec i s = readEvent f s) (h : Running s)
    (hf : f s = (w, s)) : Completes i s fun t => t.pins.bd = w ∧ SameBut [.bd] s t := by
  refine Completes.of_readEvent f hexec h ?_
  rw [hf]
  exact ⟨rfl, (s.frame_setBd w).step (State.frame_refreshAttn _)⟩

/-- A read that returns a word and replaces line n's record. -/
theorem Completes.readLineSet (hexec : exec i s = readEvent f s) (h : Running s)
    (hf : f s = (w, s.setLine n r)) :
    Completes i s fun t =>
      t.pins.bd = w ∧ t.line n = r ∧ OtherLines n s t ∧ SameBut [.bd, .lines] s t := by
  refine Completes.of_readEvent f hexec h ?_
  rw [hf]
  refine ⟨rfl, by simp, s.otherLines_setLine n r, ?_⟩
  exact (((s.frame_setLine n r).mono (by decide)).step (State.frame_setBd _ w)).step
    (State.frame_refreshAttn _)

end

theorem LineState.leavesCycles_iff {x : LineState} : x.leavesCycles = true ↔ x = .off ∨ x = .passive := by
  cases x <;> simp [LineState.leavesCycles]

theorem LineState.not_leavesCycles {x : LineState} (ho : x ≠ .off) (hp : x ≠ .passive) :
    x.leavesCycles = false :=
  Bool.eq_false_iff.mpr fun h => (LineState.leavesCycles_iff.mp h).elim ho hp

/-- A read of a command word that no forced command overlays (R2, R11). -/
theorem State.readCommand_passes {s : State} {n : LineNo}
    (h : (s.line n).state.leavesCycles = true ∨ (s.line n).commandRead.1 = none) :
    s.readCommand n = (s.readArea (commandOffset n), s) := by
  simp only [State.readCommand]
  split
  · rfl
  · rename_i hl
    split
    · rename_i k slot hk
      simp [hl, hk] at h
    · rfl

/-- A read of a command word that a forced command overlays (R11). -/
theorem State.readCommand_overlaid {s : State} {n : LineNo} {k : CommandKind} {slot : Option Forced}
    (hl : (s.line n).state.leavesCycles = false) (h : (s.line n).commandRead = (some k, slot)) :
    s.readCommand n = (commandCode k, s.setLine n { s.line n with forced := slot }) := by
  simp [State.readCommand, hl, h, State.updLine_eq]

/-- Settles O23, by what the forced command slot holds when the word is read. -/
theorem aForcedCommandOverlaysTheRead : Obligations.AForcedCommandOverlaysTheRead := by
  intro n s hrun
  refine ⟨fun h => ?_, fun f ho hp hf => ⟨fun d hd => ?_, fun ha hdel => ?_, fun ha hm htx hpl => ?_⟩⟩
  · refine .readUnchanged (f := fun s => s.readCommand n) rfl hrun (State.readCommand_passes ?_)
    rcases h with h | h | h
    · exact .inl (LineState.leavesCycles_iff.mpr (.inl h))
    · exact .inl (LineState.leavesCycles_iff.mpr (.inr h))
    · exact .inr (by simp [LineRecord.commandRead, h])
  · refine .readUnchanged (f := fun s => s.readCommand n) rfl hrun ?_
    have overlaid : (s.line n).commandRead = (some d, (s.line n).forced) := by
      simp [LineRecord.commandRead, hf, hd]
    refine (State.readCommand_overlaid (LineState.not_leavesCycles ho hp) overlaid).trans ?_
    cases d <;> exact congrArg (Prod.mk _) (s.setLine_line n)
  · refine .readLineSet (f := fun s => s.readCommand n) rfl hrun ?_
    have deliverable : (s.line n).deliverable f = true := by
      rcases hdel with h | h | h <;> simp [LineRecord.deliverable, h]
    have overlaid : (s.line n).commandRead =
        (some f.kind, some { f with awaiting := some f.kind, politeLeft := none }) := by
      simp [LineRecord.commandRead, hf, ha, deliverable]
    refine (State.readCommand_overlaid (LineState.not_leavesCycles ho hp) overlaid).trans ?_
    cases f.kind <;> rfl
  · refine .readUnchanged (f := fun s => s.readCommand n) rfl hrun (State.readCommand_passes (.inr ?_))
    have held : (s.line n).deliverable f = false := by
      simp [LineRecord.deliverable, hm, htx, Option.isSome_iff_ne_none.mpr hpl]
    simp [LineRecord.commandRead, hf, ha, held]

/-! ## Acknowledges (R2, R12, R16) -/

/-- The record after R16's test. -/
def LineRecord.tested (r : LineRecord) : LineRecord := if r.clearingDone then r.endClearing else r

theorem State.testClearing_setLine (s : State) (n : LineNo) (r : LineRecord) :
    (s.setLine n r).testClearing n = s.setLine n r.tested := by
  simp [State.testClearing, State.updLine_eq, LineRecord.tested]

/-- A passing acknowledge is seen in CLEARING while the slot is empty (R12). -/
theorem LineRecord.passAck_eq (r : LineRecord) :
    r.passAck = { r with clearing := if r.state = .clearing ∧ r.forced = none then
      (r.clearing.map fun c => { c with ackSeen := true }) else r.clearing } := by
  simp only [LineRecord.passAck, LineRecord.seeAck]
  by_cases hst : r.state = .clearing
  · by_cases hf : r.forced = none
    · simp [hst, hf]
    · simp [hf]
  · simp [hst]

/-- What is acknowledged by a write while nothing is awaited: nothing (R2, R12). -/
theorem State.awaitedBy_eq_none {s : State} {n : LineNo}
    (h : (s.line n).state = .off ∨ (s.line n).state = .passive
      ∨ ∀ f, (s.line n).forced = some f → f.awaiting = none) : s.awaitedBy n = none := by
  simp only [State.awaitedBy]
  split
  · rfl
  · rename_i hl
    have ha := (or_assoc.mpr h).resolve_left fun h => hl (LineState.leavesCycles_iff.mpr h)
    split
    · exact ha _ ‹_›
    · rfl

/-- A dialogue and a session are the states in which a processor HANG_UP acts (R13). -/
theorem State.processorCommand_passes {s : State} {n : LineNo} (w : Word)
    (hd : (s.line n).state.inDialogue = false) (hx : (s.line n).state ≠ .signedOn) :
    s.processorCommand n w = s.writeArea (commandOffset n) w := by
  simp only [State.processorCommand]
  split
  · simp [State.processorHangUp, hd, hx]
  · rfl

/-- Settles O24: taken where an acknowledge is awaited, else passed to memory. -/
theorem anAcknowledgeIsTakenOrPasses : Obligations.AnAcknowledgeIsTakenOrPasses := by
  intro n w s hrun hm
  refine ⟨fun f d ho hp hf hd => ?_, fun h => ?_, fun h => ?_⟩
  · refine .lineSet (f := fun s => s.acknowledge n w) rfl hrun ?_
    have awaited : s.awaitedBy n = some d := by
      simp [State.awaitedBy, LineState.not_leavesCycles ho hp, hf, hd]
    simp only [State.acknowledge, awaited, State.updLine_eq, State.testClearing_setLine]
    congr 1
    simp only [LineRecord.takeAck, LineRecord.seeAck, hf, acknowledged]
    cases d <;> by_cases hst : (s.line n).state = .clearing <;> simp [hst, LineRecord.tested]
  · refine .passedLine (f := fun s => s.acknowledge n w) rfl hrun hm ?_
    simp only [State.acknowledge, State.awaitedBy_eq_none h, State.updLine_eq,
      State.testClearing_setLine, State.line_writeArea]
    rw [LineRecord.passAck_eq]
    rfl
  · refine .passed (f := fun s => s.processorCommand n hangUpCode) rfl hrun hm ?_
    refine State.processorCommand_passes _ ?_ ?_ <;>
      rcases h with h | h | h | h | h <;> simp [h, LineState.inDialogue]

/-! ## Transmit indices (R14) -/

/-- A cycle that passes: it reads memory or writes it, and nothing else (R157). -/
theorem State.passes_of_classify {s : State} {c : Cycle} {o : Offset} (hm : MemoryCanonical s)
    (ho : s.areaOffset c.addr = some o)
    (h : s.takeInside c o = if c.write then written .pass (s.writeArea o c.data) else passRead s o) :
    (s.classify c).action = .pass ∧ SameBut [.mem] s (s.classify c).state
      ∧ (c.write = false → (s.classify c).data = s.readMem c.addr ∧ (s.classify c).state = s)
      ∧ (c.write = true → (s.classify c).state.readMem c.addr = c.data
          ∧ OtherWords c.addr s (s.classify c).state) := by
  have taken : s.classify c =
      if c.write then written .pass (s.writeArea o c.data) else passRead s o := by
    simp only [State.classify, ho, h]
  rw [taken, ← State.areaAddr_of_areaOffset ho]
  cases c.write with
  | false => exact ⟨rfl, SameBut.refl _ s, fun _ => ⟨rfl, rfl⟩, fun h => by cases h⟩
  | true =>
    exact ⟨rfl, s.frame_writeArea o c.data, fun h => (by cases h),
      fun _ => ⟨s.readMem_writeArea_same o c.data hm, s.otherWords_writeArea o c.data⟩⟩

theorem State.takeInside_put {s : State} {c : Cycle} (n : LineNo)
    (h : c.write = false ∨ c.master = .scanner) :
    s.takeInside c (putOffset n) = if c.write then written .pass (s.writeArea (putOffset n) c.data)
      else passRead s (putOffset n) := by
  cases hw : c.write <;> cases hc : c.master <;>
    simp_all [State.takeInside, State.processorRead, State.scannerRead, State.scannerWrite, region_put]

theorem State.takeInside_take {s : State} {c : Cycle} (n : LineNo)
    (h : c.write = false ∨ c.master = .processor) :
    s.takeInside c (takeOffset n) = if c.write then written .pass (s.writeArea (takeOffset n) c.data)
      else passRead s (takeOffset n) := by
  cases hw : c.write <;> cases hc : c.master <;>
    simp_all [State.takeInside, State.processorRead, State.scannerRead, State.processorWrite, region_take]

/-- Settles O25: the two writes by their effect, every other cycle by the regions of the two cells. -/
theorem transmitIndicesTakeSixBits : Obligations.TransmitIndicesTakeSixBits := by
  intro n w s hrun hm
  refine ⟨?_, ?_, fun c h => ?_⟩
  · exact .passedLine (f := fun s => s.writePut n w) (o := putOffset n) rfl hrun hm rfl
  · exact .passedLine (f := fun s => s.writeTake n w) (o := takeOffset n) rfl hrun hm rfl
  · rcases h with ⟨ho, h⟩ | ⟨ho, h⟩
    · exact State.passes_of_classify hm ho (State.takeInside_put n h)
    · exact State.passes_of_classify hm ho (State.takeInside_take n h)

/-! ## Session status word 0 (R21) -/

theorem State.gracePresent_eq (s : State) (n : LineNo) :
    s.gracePresent n = (s.session n).any fun x => x.grace.isSome := by
  cases h : s.session n <;> simp [State.gracePresent, h]

theorem stateCode_lt (x : LineState) (g : Bool) : stateCode x g < 2 ^ 4 := by
  cases x <;> cases g <;> decide

/-- The line summary in R170's layout. -/
theorem State.statusWord0_eq {s : State} {n : LineNo} (h : (s.line n).missed ≤ 15) :
    s.statusWord0 n = BitVec.ofBool (s.line n).forced.isSome ++ BitVec.ofNat 4 (s.line n).missed
      ++ (s.line n).sticky ++ BitVec.ofNat 2 (s.line n).speed.val
      ++ BitVec.ofNat 4 (stateCode (s.line n).state (s.gracePresent n)) := by
  have hm : (s.line n).missed < 2 ^ 4 := Nat.lt_succ_of_le h
  have hv : (s.line n).speed.val < 2 ^ 2 := (s.line n).speed.isLt
  have hc := stateCode_lt (s.line n).state (s.gracePresent n)
  refine Eq.trans ?_ (setWidth_shift_zero _)
  simp only [State.statusWord0, packWord_cons, packWord_nil, ofNat_setWidth hc, ofNat_setWidth hm,
    ofNat_setWidth hv, ofNat_toNat_bool, BitVec.ofNat_toNat, BitVec.or_zero]
  simp only [setWidth_append_shift]

/-- Settles O27. -/
theorem sessionStatusReadClearsTheMarks : Obligations.SessionStatusReadClearsTheMarks := by
  intro n s hrun hmissed
  refine (Completes.readLineSet (f := fun s => s.readStatus0 n) (n := n)
    (w := s.statusWord0 n) (r := { s.line n with sticky := 0, missed := 0 }) rfl hrun rfl).imp
    fun t ⟨hbd, hl, hother, hframe⟩ => ⟨?_, hl, hother, hframe⟩
  rw [hbd, State.statusWord0_eq hmissed, State.gracePresent_eq]
  cases (s.line n).state <;> rfl

end Sys2Proof.Machine
end

section
/-!
PROOFS. Setting writes that end no call (R18 to R20).
-/

namespace Sys2Proof.Machine

-- One proof after another: a default `by` argument waits for every earlier proof of the text.
set_option Elab.async false

/-! ## Notices and refusals (R142, R161) -/

theorem State.queue_give (s : State) (e : Notice) :
    (s.give e).attention.queue e.cls = queueNotice (s.attention.queue e.cls) e := by
  simp [State.give]

theorem State.otherQueues_give (s : State) (e : Notice) : OtherQueues e.cls s (s.give e) := by
  intro j hj
  simp [State.give, Attention.queue_setQueue_other _ _ hj]

theorem State.givenOnly_give (s : State) (e : Notice) : GivenOnly e s (s.give e) :=
  ⟨s.queue_give e, s.otherQueues_give e⟩

/-- A refused write, as the latch records it (R161). -/
theorem State.latched_refuse (s : State) (m : Master) (o : Offset) : Latched m o s (s.refuse m o) := by
  have frame := s.frame_refuse m o
  by_cases hv : s.bus.latch.valid = true
  · have e : s.refuse m o = { s with bus := { s.bus with
        latch := { valid := true, offset := o, master := m, more := true } } } := if_pos hv
    rw [e] at frame ⊢
    exact ⟨by simp [hv], fun h => by simp [hv] at h, fun _ => rfl, frame⟩
  · have e : s.refuse m o = State.give { s with bus := { s.bus with
        latch := { valid := true, offset := o, master := m, more := false } } } .adminRefused :=
      if_neg hv
    rw [e] at frame ⊢
    exact ⟨by simp [hv], fun _ => State.givenOnly_give _ .adminRefused, fun h => absurd h hv, frame⟩

theorem Latched.refreshAttn {m : Master} {o : Offset} {s t : State} (h : Latched m o s t) :
    Latched m o s t.refreshAttn := by
  obtain ⟨hl, hg, ha, hf⟩ := h
  exact ⟨hl, hg, ha, hf.step (State.frame_refreshAttn t)⟩

/-- An event that refuses a write. -/
theorem Completes.refused {i : Instr} {s : State} {f : State → State} {m : Master} {o : Offset}
    (hexec : exec i s = event f s) (h : Running s) (hf : f s = s.refuse m o) :
    Completes i s (Latched m o s) := by
  refine Completes.of_event f hexec h ?_
  rw [hf]
  exact (s.latched_refuse m o).refreshAttn

/-! ## Setting words (R18) -/

theorem settingMode_eq_none {w : Word} (h : w.extractLsb' 0 2 = 3#2) : settingMode w = none := by
  simp [settingMode, field, h]

theorem settingHang_unassigned {w : Word} (h : w.extractLsb' 4 2 = 3#2) :
    settingHang w = .unassigned := by
  simp [settingHang, field, h]

theorem settingHang_none {w : Word} (h : w.extractLsb' 4 2 = 0#2) : settingHang w = .none := by
  simp [settingHang, field, h]

theorem settingHang_polite {w : Word} (h : w.extractLsb' 4 2 = 1#2) :
    settingHang w = .request .polite := by
  simp [settingHang, field, h]

theorem settingHang_rude {w : Word} (h : w.extractLsb' 4 2 = 2#2) :
    settingHang w = .request .rude := by
  simp [settingHang, field, h]

theorem State.writeSetting_refused {s : State} {n : LineNo} {w : Word} (h : settingRefused w = true) :
    s.writeSetting n w = s.refuse .processor (settingOffset n) := if_pos h

/-- A setting write with a mode load and a HANG request does one after the other. -/
theorem State.writeSetting_both {s : State} {n : LineNo} {w : Word} {m : LineMode} {h : Manner}
    (hl : w.getLsbD 2 = true) (hm : settingMode w = some m) (hh : settingHang w = .request h) :
    s.writeSetting n w = (s.modeLoaded n m).hangRequested n h := by
  have load : settingLoad w = true := hl
  simp [State.writeSetting, settingRefused, State.settingModeLoad, State.settingHangRequest, load, hm, hh]

theorem State.writeSetting_mode {s : State} {n : LineNo} {w : Word} {m : LineMode}
    (hl : w.getLsbD 2 = true) (hm : settingMode w = some m) (hh : settingHang w = .none) :
    s.writeSetting n w = s.modeLoaded n m := by
  have load : settingLoad w = true := hl
  simp [State.writeSetting, settingRefused, State.settingModeLoad, State.settingHangRequest, load, hm, hh]

theorem State.writeSetting_hang {s : State} {n : LineNo} {w : Word} {h : Manner}
    (hl : w.getLsbD 2 = false) (hh : settingHang w = .request h) :
    s.writeSetting n w = s.hangRequested n h := by
  have load : settingLoad w = false := hl
  simp [State.writeSetting, settingRefused, State.settingModeLoad, State.settingHangRequest, load, hh]

/-! ## Mode loads and HANG requests that end no call (R19, R20) -/

theorem State.modeLoaded_same {s : State} {n : LineNo} {m : LineMode} (h : (s.line n).mode = m) :
    s.modeLoaded n m = s := if_pos h

theorem State.modeLoaded_rest {s : State} {n : LineNo} {m : LineMode} (h : (s.line n).mode ≠ m)
    (hst : (s.line n).state = .off ∨ (s.line n).state = .passive ∨ (s.line n).state = .idle) :
    s.modeLoaded n m = s.setLine n ({ s.line n with mode := m }.toMode m) := by
  rcases hst with hst | hst | hst <;> simp [State.modeLoaded, h, hst, State.updLine_eq]

/-- A line that leaves the answer queue after its record was replaced loses its ring-gone timer too. -/
theorem State.leaveQueue_setLine (s : State) (n : LineNo) (r : LineRecord) :
    (s.setLine n r).leaveQueue n = (s.leaveQueue n).setLine n { r with ringGone := none } := by
  simp [State.leaveQueue, State.updLine, State.setLine, State.line]

theorem State.line_leaveQueue (s : State) (n : LineNo) :
    (s.leaveQueue n).line n = { s.line n with ringGone := none } :=
  State.line_of_lines (s.lines_leaveQueue n)

theorem State.modeLoaded_ringing {s : State} {n : LineNo} {m : LineMode} (h : (s.line n).mode ≠ m)
    (hst : (s.line n).state = .ringing) :
    s.modeLoaded n m =
      (s.leaveQueue n).setLine n ({ s.line n with mode := m, ringGone := none }.toMode m) := by
  simp [State.modeLoaded, h, hst, State.updLine_eq, State.leaveQueue_setLine]

theorem State.modeLoaded_clearing {s : State} {n : LineNo} {m : LineMode} (h : (s.line n).mode ≠ m)
    (hst : (s.line n).state = .clearing) :
    s.modeLoaded n m = s.setLine n { s.line n with
      mode := m, clearing := (s.line n).clearing.map fun c => { c with modeAfter := m } } := by
  simp [State.modeLoaded, h, hst, State.updLine_eq]

theorem State.hangRequested_ringing {s : State} {n : LineNo} {m : Manner}
    (hst : (s.line n).state = .ringing) :
    s.hangRequested n m =
      (s.leaveQueue n).setLine n ({ s.line n with ringGone := none }.toMode .watched) := by
  simp [State.hangRequested, hst, State.updLine_eq, State.line_leaveQueue]

/-- Settles O26, by the line's state and what the setting word asks for. -/
theorem settingWritesLoadModesAndHangUp : Obligations.SettingWritesLoadModesAndHangUp := by
  intro n w s hrun refused
  refine ⟨fun hl h => ?_, fun hl h => ?_, fun m hl hh hm => ⟨fun hmode => ?_, fun hmode hst => ?_,
    fun hmode hst => ?_⟩, fun h hl hh => ⟨fun hst => ?_, fun hst hr hf => ?_, fun hst hp => ?_,
    fun hst => ?_⟩, fun m h hl hm hh => ?_⟩
  · refine .refused (f := fun s => s.writeSetting n w) rfl hrun (State.writeSetting_refused ?_)
    rcases h with h | h
    · simp [settingRefused, settingLoad, hl, settingMode_eq_none h]
    · simp [settingRefused, settingHang_unassigned h]
  · refine .refused (f := fun s => s.writeSetting n w) rfl hrun (State.writeSetting_refused ?_)
    simp [settingRefused, settingHang_unassigned h]
  · refine .unchanged (f := fun s => s.writeSetting n w) rfl hrun ?_
    exact (State.writeSetting_mode hl hm (settingHang_none hh)).trans (State.modeLoaded_same hmode)
  · have load := State.writeSetting_mode (s := s) (n := n) hl hm (settingHang_none hh)
    by_cases hring : (s.line n).state = .ringing
    · refine (Completes.lineLeft (f := fun s => s.writeSetting n w) rfl hrun
        (load.trans (State.modeLoaded_ringing hmode hring))).imp fun t ⟨hl, ho, hq, hf⟩ => ?_
      refine ⟨hl.trans ?_, ho, by rw [if_pos hring]; exact hq, hf⟩
      simp only [if_pos hring]
      cases m <;> rfl
    · refine (Completes.lineSet (f := fun s => s.writeSetting n w) rfl hrun (load.trans
        (State.modeLoaded_rest hmode ?_))).imp fun t ⟨hl, ho, hf⟩ => ?_
      · rcases hst with h | h | h | h
        · exact .inl h
        · exact .inr (.inl h)
        · exact .inr (.inr h)
        · exact absurd h hring
      · refine ⟨hl.trans ?_, ho, ?_, hf.mono (by decide)⟩
        · simp only [if_neg hring]
          cases m <;> rfl
        · rw [if_neg hring]
          exact hf .answerQueue (by decide)
  · exact .lineSet (f := fun s => s.writeSetting n w) rfl hrun
      ((State.writeSetting_mode hl hm (settingHang_none hh)).trans
        (State.modeLoaded_clearing hmode hst))
  · exact .lineLeft (f := fun s => s.writeSetting n w) rfl hrun
      ((State.writeSetting_hang hl hh).trans (State.hangRequested_ringing hst))
  · refine .lineSet (f := fun s => s.writeSetting n w) rfl hrun
      ((State.writeSetting_hang hl hh).trans ?_)
    simp [State.hangRequested, hst, hr, Option.isSome_iff_ne_none.mpr hf, State.hangUp,
      State.updLine_eq]
  · refine .unchanged (f := fun s => s.writeSetting n w) rfl hrun
      ((State.writeSetting_hang hl hh).trans ?_)
    rcases hp with hp | hp <;> simp [State.hangRequested, hst, hp]
  · refine .unchanged (f := fun s => s.writeSetting n w) rfl hrun
      ((State.writeSetting_hang hl hh).trans ?_)
    rcases hst with hst | hst | hst <;> simp [State.hangRequested, hst]
  · rw [← State.writeSetting_both hl hm hh]
    exact event_running (fun s => s.writeSetting n w) hrun

end Sys2Proof.Machine
end

section
/-!
PROOFS. Receive entries outside NAME and PASSWORD (R9, R51), and status writes (R4 to R8, R33).
-/

namespace Sys2Proof.Machine

-- One proof after another: a default `by` argument waits for every earlier proof of the text.
set_option Elab.async false

/-! ## Receive entries (R9, R46) -/

theorem State.entryInMemory_of_ne {s : State} {n : LineNo} (w : Word)
    (h : (s.line n).state ≠ .password) : s.entryInMemory n w = w := if_neg fun hp => h hp.1

/-- A line record with the marks of an entry added (R9). -/
def LineRecord.marked (r : LineRecord) (w : Word) : LineRecord :=
  { r with sticky := r.sticky ||| (entryMarks w).setWidth 5 }

theorem State.addMarks_eq (s : State) (n : LineNo) (w : Word) :
    s.addMarks n w = s.setLine n ((s.line n).marked w) := rfl

theorem State.receive_passive {s : State} {n : LineNo} (i : Fin 32) (w : Word)
    (h : (s.line n).state = .passive) : s.receive n i w = s.writeArea (receiveOffset n i) w := by
  have hp : (s.line n).state ≠ .password := by simp [h]
  simp [State.receive, State.entryInMemory_of_ne w hp, h]

/-- An entry that no dialogue and no session takes leaves its marks only (R9, R51). -/
theorem State.receive_marked {s : State} {n : LineNo} (i : Fin 32) (w : Word)
    (h : (s.line n).state = .off ∨ (s.line n).state = .idle ∨ (s.line n).state = .ringing
      ∨ (s.line n).state = .clearing ∨ (s.line n).state = .answering
      ∨ (s.line n).state = .checking) :
    s.receive n i w = (s.writeArea (receiveOffset n i) w).setLine n ((s.line n).marked w) := by
  have hp : (s.line n).state ≠ .password := by
    rcases h with h | h | h | h | h | h <;> simp [h]
  simp only [State.receive, State.entryInMemory_of_ne w hp, State.line_writeArea]
  rcases h with h | h | h | h | h | h
  case inr.inr.inr.inr.inl | inr.inr.inr.inr.inr =>
    simp only [h, State.addMarks_eq, State.line_setLine_same, State.line_writeArea]
    split <;> simp [State.dialogueEntry, LineRecord.marked, h]
  all_goals simp only [h, State.addMarks_eq, State.line_writeArea]

theorem State.receive_session {s : State} {n : LineNo} (i : Fin 32) (w : Word)
    (h : (s.line n).state = .signedOn) :
    s.receive n i w = State.updSession ((s.writeArea (receiveOffset n i) w).setLine n
      { (s.line n).marked w with activity := true }) n
        fun x => { x with faults := x.faults ||| (entryMarks w).setWidth 4 } := by
  have hp : (s.line n).state ≠ .password := by simp [h]
  simp [State.receive, State.entryInMemory_of_ne w hp, h, State.sessionEntry, State.addMarks_eq,
    State.updLine_eq]

/-- Settles O28, by the kind of the line's state. -/
theorem anEntryAddsItsMarks : Obligations.AnEntryAddsItsMarks := by
  intro n i w s hrun hm
  refine ⟨fun h => ?_, fun h => ?_, fun h => ?_⟩
  · exact .passed (f := fun s => s.receive n i w) (o := receiveOffset n i) rfl hrun hm
      (State.receive_passive i w h)
  · exact .passedLine (f := fun s => s.receive n i w) (o := receiveOffset n i) rfl hrun hm
      (State.receive_marked i w h)
  · refine .of_event (fun s => s.receive n i w) rfl hrun ?_
    dsimp only
    rw [State.receive_session i w h]
    refine ⟨by simp [LineRecord.marked, entryMarks], fun m hmn => ?_, by simp [entryMarks],
      fun m hmn => ?_, s.readMem_writeArea_same (receiveOffset n i) w hm,
      s.otherWords_writeArea (receiveOffset n i) w, ?_⟩
    · exact State.line_setLine_other (s.writeArea (receiveOffset n i) w) _ hmn
    · exact State.session_updSession_other _ _ hmn
    · exact ((((s.frame_writeArea (receiveOffset n i) w).mono (by decide)).step
        (State.frame_setLine _ n _)).step (State.frame_updSession _ n _)).step
          (State.frame_refreshAttn _)

/-! ## The rules of a status write (R4 to R8) -/

/-- A line record with what a status word shows as last seen (R4). -/
def LineRecord.seen (r : LineRecord) (w : Word) : LineRecord :=
  { r with lastCarrier := statusCarrier w, lastRing := statusRing w }

/-- R16's test can end nothing but CLEARING. -/
theorem LineRecord.tested_of_ne {r : LineRecord} (h : r.state ≠ .clearing) : r.tested = r := by
  simp [LineRecord.tested, LineRecord.clearingDone, h]

/-- A status write on a line that is watched or in a call: the rules in turn, then what was last seen and
R16's test (R4). -/
theorem State.statusWritten_eq {s u v : State} {n : LineNo} {w : Word}
    (ho : (s.line n).state ≠ .off) (hp : (s.line n).state ≠ .passive)
    (carrier : (s.writeArea (statusOffset n) w).carrierRule n w = u) (ring : u.ringRule n w = v) :
    s.statusWritten n w = v.setLine n ((v.line n).seen w).tested := by
  have h : s.statusWritten n w =
      ((((s.writeArea (statusOffset n) w).carrierRule n w).ringRule n w).setLastSeen n w).testClearing
        n := by
    simp only [State.statusWritten, State.line_writeArea]
    split <;> first | contradiction | rfl
  rw [h, carrier, ring]
  simp only [State.setLastSeen, State.updLine_eq, State.testClearing_setLine]
  rfl

/-- The ring rule acts on IDLE and RINGING lines only (R5). -/
theorem State.ringRule_of_ne {s : State} {n : LineNo} (w : Word) (hi : (s.line n).state ≠ .idle)
    (hr : (s.line n).state ≠ .ringing) : s.ringRule n w = s := by
  simp only [State.ringRule]
  split
  · split <;> first | contradiction | rfl
  · rfl

/-- An event of a status write that leaves line n's record and the word (R4). -/
theorem Completes.statusLine {n : LineNo} {w : Word} {s : State} {r : LineRecord} (hrun : Running s)
    (hm : MemoryCanonical s)
    (h : s.statusWritten n w = (s.writeArea (statusOffset n) w).setLine n r) :
    Completes (.statusWrite n w) s fun t => t.line n = r ∧ OtherLines n s t
      ∧ OtherWords (s.areaAddr (statusOffset n)) s t
      ∧ t.readMem (s.areaAddr (statusOffset n)) = w ∧ SameBut [.mem, .lines] s t :=
  (Completes.passedLine (f := fun s => s.statusWritten n w) rfl hrun hm h).imp
    fun _ ⟨hl, ho, hr, hw, hf⟩ => ⟨hl, ho, hw, hr, hf⟩

/-! ## Carrier doubt (R7, R8) -/

/-- The states in which a fall of carrier starts a doubt (R7). -/
def LineState.doubts (x : LineState) : Bool :=
  match x with
  | .name | .password | .checking | .signedOn => true
  | .off | .passive | .idle | .ringing | .answering | .clearing => false

/-- The carrier rules in the states where carrier can be in doubt (R7, R8). -/
theorem State.carrierRule_doubts {s : State} {n : LineNo} (w : Word)
    (h : (s.line n).state.doubts = true) :
    s.carrierRule n w = match (s.line n).doubt with
      | some _ => if statusCarrier w then s.glitch n else s
      | none =>
        if !statusCarrier w && (s.line n).lastCarrier then
          s.updLine n fun r => { r with doubt := some s.plan.carrierHold }
        else if statusCarrier w && !(s.line n).lastCarrier then s.setSpeed n w
        else s := by
  simp only [State.carrierRule]
  split <;> simp_all [LineState.doubts] <;> rfl

/-- A status write in those states: the carrier rules, then what was last seen. -/
theorem State.statusWritten_doubts {s u : State} {n : LineNo} {w : Word}
    (h : (s.line n).state.doubts = true)
    (carrier : (s.writeArea (statusOffset n) w).carrierRule n w = u)
    (hu : (u.line n).state = (s.line n).state) :
    s.statusWritten n w = u.setLine n ((u.line n).seen w) := by
  have ne : ∀ x : LineState, x.doubts = false → (s.line n).state ≠ x := by
    rintro x hx rfl
    rw [h] at hx
    cases hx
  have seen : ((u.line n).seen w).tested = (u.line n).seen w :=
    LineRecord.tested_of_ne (hu ▸ ne .clearing rfl)
  rw [State.statusWritten_eq (ne .off rfl) (ne .passive rfl) carrier
    (State.ringRule_of_ne w (hu ▸ ne .idle rfl) (hu ▸ ne .ringing rfl)), seen]

/-- The carrier's return within a doubt (R8): GLITCH in the sticky marks and in a session's fault
summary. -/
theorem Completes.glitched {n : LineNo} {w : Word} {s : State} (hrun : Running s)
    (hm : MemoryCanonical s) (h : (s.line n).state.doubts = true) (hd : (s.line n).doubt ≠ none)
    (hc : statusCarrier w = true) :
    Completes (.statusWrite n w) s fun t =>
      t.line n = { (s.line n).seen w with
        doubt := none, sticky := (s.line n).sticky ||| glitchMark }
      ∧ ((s.line n).state = .signedOn → t.session n = (s.session n).map fun x =>
          { x with faults := x.faults ||| glitchFault })
      ∧ ((s.line n).state ≠ .signedOn → t.session n = s.session n)
      ∧ OtherLines n s t ∧ OtherSessions n s t
      ∧ OtherWords (s.areaAddr (statusOffset n)) s t
      ∧ t.readMem (s.areaAddr (statusOffset n)) = w ∧ SameBut [.mem, .lines, .sessions] s t := by
  refine .of_event (fun s => s.statusWritten n w) rfl hrun ?_
  obtain ⟨d, hd⟩ := Option.ne_none_iff_exists'.mp hd
  have glitched : (s.writeArea (statusOffset n) w).carrierRule n w =
      (s.writeArea (statusOffset n) w).glitch n := by
    rw [State.carrierRule_doubts w (by simpa using h)]
    simp [hd, hc]
  have frame := ((s.frame_writeArea (statusOffset n) w).mono (bs := [.mem, .lines, .sessions])
    (by decide))
  have words := s.otherWords_writeArea (statusOffset n) w
  have same := s.readMem_writeArea_same (statusOffset n) w hm
  dsimp only
  rw [State.statusWritten_doubts h glitched (by simp only [State.glitch]; split <;> simp)]
  by_cases hon : (s.line n).state = .signedOn
  · have e : (s.writeArea (statusOffset n) w).glitch n =
        State.updSession ((s.writeArea (statusOffset n) w).setLine n
          { s.line n with doubt := none, sticky := (s.line n).sticky ||| glitchMark }) n
          fun x => { x with faults := x.faults ||| glitchFault } := by
      simp [State.glitch, State.updLine_eq, hon]
    rw [e]
    refine ⟨by simp [LineRecord.seen], fun _ => by simp, fun hne => absurd hon hne,
      fun m hmn => ?_, fun m hmn => ?_, words, same, ?_⟩
    · exact (State.line_setLine_other _ _ hmn).trans
        (State.line_setLine_other (s.writeArea (statusOffset n) w) _ hmn)
    · exact State.session_updSession_other _ _ hmn
    · exact (((frame.step (State.frame_setLine _ n _)).step (State.frame_updSession _ n _)).step
        (State.frame_setLine _ n _)).step (State.frame_refreshAttn _)
  · have e : (s.writeArea (statusOffset n) w).glitch n = (s.writeArea (statusOffset n) w).setLine n
        { s.line n with doubt := none, sticky := (s.line n).sticky ||| glitchMark } := by
      simp [State.glitch, State.updLine_eq, hon]
    rw [e]
    refine ⟨by simp [LineRecord.seen], fun h => absurd h hon, fun _ => by simp, fun m hmn => ?_,
      fun m hmn => by simp, words, same, ?_⟩
    · exact (State.line_setLine_other _ _ hmn).trans
        (State.line_setLine_other (s.writeArea (statusOffset n) w) _ hmn)
    · exact ((frame.step (State.frame_setLine _ n _)).step (State.frame_setLine _ n _)).step
        (State.frame_refreshAttn _)

/-- Settles O18, by the doubt the write finds and the carrier it shows. -/
theorem aCarrierFallStartsADoubt : Obligations.ACarrierFallStartsADoubt := by
  intro n w s hrun hm hst seen
  have h : (s.line n).state.doubts = true := by
    rcases hst with h | h | h | h <;> rw [h] <;> rfl
  have rule := State.carrierRule_doubts (s := s.writeArea (statusOffset n) w) w (by simpa using h)
  simp only [State.line_writeArea] at rule
  have quiet : (s.writeArea (statusOffset n) w).carrierRule n w = s.writeArea (statusOffset n) w →
      Completes (.statusWrite n w) s fun t =>
        t.line n = seen ∧ OtherLines n s t ∧ OtherWords (s.areaAddr (statusOffset n)) s t
        ∧ t.readMem (s.areaAddr (statusOffset n)) = w ∧ SameBut [.mem, .lines] s t := fun hu =>
    .statusLine hrun hm (State.statusWritten_doubts h hu (by simp))
  refine ⟨fun hd hc hl => ?_, fun hd hc => Completes.glitched hrun hm h hd hc, fun hd hc => ?_,
    fun hd hc => ?_⟩ <;> change statusCarrier w = _ at hc
  · have fall : (s.writeArea (statusOffset n) w).carrierRule n w =
        (s.writeArea (statusOffset n) w).setLine n
          { s.line n with doubt := some s.plan.carrierHold } := by
      rw [rule]
      simp [hd, hc, hl, State.updLine_eq]
    refine .statusLine hrun hm ((State.statusWritten_doubts h fall (by simp)).trans ?_)
    simp only [State.setLine_setLine, State.line_setLine_same]
    rfl
  · obtain ⟨d, hd⟩ := Option.ne_none_iff_exists'.mp hd
    exact quiet (by rw [rule]; simp [hd, hc])
  · refine quiet ?_
    rw [rule]
    simp [hd, hc]

/-! ## Quiet status writes (R2, R4, R5, R16) -/

theorem State.statusWritten_passive {s : State} {n : LineNo} (w : Word)
    (h : (s.line n).state = .passive) :
    s.statusWritten n w = (s.writeArea (statusOffset n) w).setLine n (s.line n) := by
  have e := State.setLine_line (s.writeArea (statusOffset n) w) n
  rw [State.line_writeArea] at e
  simp [State.statusWritten, h, e]

theorem State.statusWritten_off {s : State} {n : LineNo} (w : Word)
    (h : (s.line n).state = .off) :
    s.statusWritten n w = (s.writeArea (statusOffset n) w).setLine n ((s.line n).seen w) := by
  simp [State.statusWritten, h, State.setLastSeen, State.updLine_eq, LineRecord.seen]

/-- The carrier rules without a rise, and outside the states where carrier can be in doubt (R6 to R8). -/
theorem State.carrierRule_quiet {s : State} {n : LineNo} {w : Word}
    (hd : (s.line n).state.doubts = false)
    (h : (s.line n).state = .clearing ∨ statusCarrier w = false ∨ (s.line n).lastCarrier = true) :
    s.carrierRule n w = s := by
  have rise : (s.line n).state ≠ .clearing →
      (statusCarrier w && !(s.line n).lastCarrier) = false := by
    intro hne
    rcases h.resolve_left hne with h | h <;> simp [h]
  simp only [State.carrierRule]
  cases hst : (s.line n).state <;> simp_all [LineState.doubts]

theorem State.ringRule_quiet {s : State} {n : LineNo} {w : Word} (hst : (s.line n).state = .idle)
    (h : statusRing w = false ∨ (s.line n).lastRing = true ∨ s.plan.state ≠ .planned) :
    s.ringRule n w = s := by
  simp only [State.ringRule, hst]
  rcases h with h | h | h <;> simp [h]

/-- Settles O19, by the line's state: which rules have nothing to do, and R16's test in CLEARING. -/
theorem aQuietStatusWriteIsOnlySeen : Obligations.AQuietStatusWriteIsOnlySeen := by
  intro n w s hrun hm seen quiet
  have settled : ∀ {x : LineState} {v : State}, (s.line n).state = x → x ≠ .off → x ≠ .passive →
      x.doubts = false → x = .clearing ∨ statusCarrier w = false ∨ (s.line n).lastCarrier = true →
      (s.writeArea (statusOffset n) w).ringRule n w = v →
      s.statusWritten n w = v.setLine n ((v.line n).seen w).tested := by
    rintro x v rfl ho hp hd hrise hring
    exact State.statusWritten_eq ho hp (State.carrierRule_quiet (by simpa using hd) (by simpa using hrise))
      hring
  have idleRing : ∀ {x : LineState}, (s.line n).state = x → x ≠ .idle → x ≠ .ringing →
      (s.writeArea (statusOffset n) w).ringRule n w = s.writeArea (statusOffset n) w := by
    rintro x rfl hi hr
    exact State.ringRule_of_ne w (by simpa using hi) (by simpa using hr)
  refine ⟨fun h => ?_, fun h => ?_, fun hrise => ⟨fun h => ?_, fun h hring => ?_, fun h => ?_⟩,
    fun c h hc => ⟨fun hnot => ?_, fun hack hcar => ?_⟩⟩
  · exact .statusLine hrun hm (State.statusWritten_passive w h)
  · exact .statusLine hrun hm (State.statusWritten_off w h)
  · refine .statusLine hrun hm ((settled h (by decide) (by decide) rfl (.inr hrise)
      (idleRing h (by decide) (by decide))).trans ?_)
    rw [State.line_writeArea, LineRecord.tested_of_ne (by simp [LineRecord.seen, h])]
    rfl
  · refine .statusLine hrun hm ((settled h (by decide) (by decide) rfl (.inr hrise)
      (State.ringRule_quiet (s := s.writeArea (statusOffset n) w) h hring)).trans ?_)
    rw [State.line_writeArea, LineRecord.tested_of_ne (by simp [LineRecord.seen, h])]
    rfl
  · have rings : (s.writeArea (statusOffset n) w).ringRule n w =
        (s.writeArea (statusOffset n) w).setLine n (if statusRing w = true then
          { s.line n with ringGone := some s.ringGoneTicks } else s.line n) := by
      have self := State.setLine_line (s.writeArea (statusOffset n) w) n
      rw [State.line_writeArea] at self
      cases hr : statusRing w
      · simp [State.ringRule, hr, self]
      · simp [State.ringRule, hr, h, State.updLine_eq, State.ringGoneTicks]
    refine .statusLine hrun hm ((settled h (by decide) (by decide) rfl (.inr hrise) rings).trans ?_)
    rw [State.line_setLine_same, State.setLine_setLine]
    change _ = State.setLine _ n (if statusRing w = true then _ else _)
    split <;> rw [LineRecord.tested_of_ne (by simp [LineRecord.seen, h])] <;> rfl
  · refine .statusLine hrun hm ((settled h (by decide) (by decide) rfl (.inl rfl)
      (idleRing h (by decide) (by decide))).trans ?_)
    have kept : ((s.line n).seen w).clearingDone = false := by
      rcases hnot with ha | hw
      · simp [LineRecord.clearingDone, LineRecord.seen, hc, ha]
      · have hw : statusCarrier w = true := hw
        simp [LineRecord.clearingDone, LineRecord.seen, hw]
    rw [State.line_writeArea, LineRecord.tested, kept]
    rfl
  · refine .statusLine hrun hm ((settled h (by decide) (by decide) rfl (.inl rfl)
      (idleRing h (by decide) (by decide))).trans ?_)
    have hcar : statusCarrier w = false := hcar
    have ended : ((s.line n).seen w).clearingDone = true := by
      simp [LineRecord.clearingDone, LineRecord.seen, h, hc, hack, hcar]
    rw [State.line_writeArea, LineRecord.tested, if_pos ended, LineRecord.endClearing]
    simp only [LineRecord.seen, hc]
    cases c.modeAfter <;> rfl

end Sys2Proof.Machine
end

section
/-!
PROOFS. Rising carrier (R6, R33) and short ticks (R3, R42, R100).
-/

namespace Sys2Proof.Machine

-- One proof after another: a default `by` argument waits for every earlier proof of the text.
set_option Elab.async false

/-! ## Unsolicited carrier (R6) -/

/-- The record of a line whose carrier rose unasked: in CLEARING behind a rude HANG_UP (R6, R15). -/
def LineRecord.unsolicited (r : LineRecord) (limit : Nat) (w : Word) : LineRecord :=
  { r.cleared (requestHangUp limit r.forced .rude) with speed := statusSpeed w }

/-- The carrier rules at a rise on a line that waits for no carrier (R4, R6). -/
theorem State.carrierRule_unsolicited {s : State} {n : LineNo} {w : Word}
    (hst : (s.line n).state = .idle ∨ (s.line n).state = .ringing)
    (hmode : (s.line n).mode = .watched) (hc : statusCarrier w = true)
    (hl : (s.line n).lastCarrier = false) :
    s.carrierRule n w = ((s.leaveQueue n).setLine n
      ((s.line n).unsolicited s.plan.politeLimit w)).give (.rejected n .unsolicited) := by
  have rule : s.carrierRule n w = (s.setSpeed n w).unsolicited n := by
    rcases hst with h | h <;> simp [State.carrierRule, h, hmode, hc, hl]
  rw [rule]
  simp only [State.unsolicited, State.setSpeed, State.updLine_eq, State.leaveQueue_setLine,
    State.hangUp, State.enterClearing, State.setLine_setLine, State.line_setLine_same,
    State.plan_setLine, State.plan_leaveQueue]
  rfl

/-- A status write that shows an unsolicited rise (R6). -/
theorem State.statusWritten_unsolicited {s : State} {n : LineNo} {w : Word}
    (hst : (s.line n).state = .idle ∨ (s.line n).state = .ringing)
    (hmode : (s.line n).mode = .watched) (hc : statusCarrier w = true)
    (hl : (s.line n).lastCarrier = false) :
    s.statusWritten n w = ((((s.writeArea (statusOffset n) w).leaveQueue n).setLine n
      ((s.line n).unsolicited s.plan.politeLimit w)).give (.rejected n .unsolicited)).setLine n
        (((s.line n).unsolicited s.plan.politeLimit w).seen w) := by
  have carrier := State.carrierRule_unsolicited (s := s.writeArea (statusOffset n) w) (n := n)
    (by simpa using hst) (by simpa using hmode) hc (by simpa using hl)
  have ho : (s.line n).state ≠ .off := by rcases hst with h | h <;> simp [h]
  have hp : (s.line n).state ≠ .passive := by rcases hst with h | h <;> simp [h]
  have clearing : ((s.line n).unsolicited s.plan.politeLimit w).state = .clearing := rfl
  simp only [State.line_writeArea, State.plan_writeArea] at carrier
  rw [State.statusWritten_eq ho hp carrier (State.ringRule_of_ne w (by simp [clearing])
    (by simp [clearing]))]
  simp only [State.line_give, State.line_setLine_same]
  rfl

/-! ## The answered call (R33) -/

/-- The record of a line whose answered call has carrier: the name phase (R33). -/
def LineRecord.answeredCall (r : LineRecord) (w : Word) : LineRecord :=
  { r with state := .name, answer := none, forced := Machine.withdrawAnswer r.forced
           speed := statusSpeed w }

theorem State.setLine_updCtx (s : State) (n : LineNo) (r : LineRecord) (k : CtxNo)
    (f : Context → Context) : (s.setLine n r).updCtx k f = (s.updCtx k f).setLine n r := rfl

theorem State.answered_of_context {s : State} {n : LineNo} {k : CtxNo}
    (hk : (s.line n).context = some k) :
    s.answered n = ((s.updCtx k fun c =>
      { c with signOnTime := some (s.plan.signOnLimit * Config.ticksPerSecond) }).setLine n
        { s.line n with state := .name, answer := none,
                        forced := Machine.withdrawAnswer (s.line n).forced }).give
          (.promptConnect n) := by
  have rule : s.answered n = (((s.updCtx k fun c =>
      { c with signOnTime := some (s.plan.signOnLimit * Config.ticksPerSecond) }).withdrawAnswer
        n).updLine n fun r => { r with answer := none, state := .name }).give (.promptConnect n) := by
    simp only [State.answered, hk]
  rw [rule]
  simp only [State.withdrawAnswer, State.updLine_eq, State.setLine_setLine, State.line_setLine_same]
  rfl

/-- The carrier rules at a rise in ANSWERING (R4, R33). -/
theorem State.carrierRule_answered {s : State} {n : LineNo} {k : CtxNo} {w : Word}
    (hst : (s.line n).state = .answering) (hk : (s.line n).context = some k)
    (hc : statusCarrier w = true) (hl : (s.line n).lastCarrier = false) :
    s.carrierRule n w = ((s.updCtx k fun c =>
      { c with signOnTime := some (s.plan.signOnLimit * Config.ticksPerSecond) }).setLine n
        ((s.line n).answeredCall w)).give (.promptConnect n) := by
  have rule : s.carrierRule n w = (s.setSpeed n w).answered n := by
    simp [State.carrierRule, hst, hc, hl]
  rw [rule, State.answered_of_context (k := k) (by simpa [State.setSpeed] using hk), State.setSpeed,
    State.line_updLine_same, State.updLine_eq, State.setLine_updCtx, State.setLine_setLine]
  rfl

/-- A status write that shows the carrier of an answered call (R33). -/
theorem State.statusWritten_answered {s : State} {n : LineNo} {k : CtxNo} {w : Word}
    (hst : (s.line n).state = .answering) (hk : (s.line n).context = some k)
    (hc : statusCarrier w = true) (hl : (s.line n).lastCarrier = false) :
    s.statusWritten n w = ((((s.writeArea (statusOffset n) w).updCtx k fun c =>
      { c with signOnTime := some (s.plan.signOnLimit * Config.ticksPerSecond) }).setLine n
        ((s.line n).answeredCall w)).give (.promptConnect n)).setLine n
          (((s.line n).answeredCall w).seen w) := by
  have carrier := State.carrierRule_answered (s := s.writeArea (statusOffset n) w) (n := n)
    (by simpa using hst) (by simpa using hk) hc (by simpa using hl)
  have named : ((s.line n).answeredCall w).state = .name := rfl
  simp only [State.line_writeArea, State.plan_writeArea] at carrier
  rw [State.statusWritten_eq (by simp [hst]) (by simp [hst]) carrier
    (State.ringRule_of_ne w (by simp [named]) (by simp [named]))]
  simp only [State.line_give, State.line_setLine_same]
  rw [LineRecord.tested_of_ne (by simp [LineRecord.seen, named])]

/-- Settles O17. -/
theorem carrierRisingIsRefusedOrAnswered : Obligations.CarrierRisingIsRefusedOrAnswered := by
  refine ⟨fun n w s hrun hm hst hmode hc hl => ?_, fun n k w s hrun hm hst hk hc hl => ?_⟩ <;>
    change statusCarrier w = true at hc <;>
    refine .of_event (fun s => s.statusWritten n w) rfl hrun ?_ <;> dsimp only
  · rw [State.statusWritten_unsolicited hst hmode hc hl]
    refine ⟨?_, fun m hmn => ?_, rfl, s.givenOnly_give (.rejected n .unsolicited),
      s.readMem_writeArea_same (statusOffset n) w hm, s.otherWords_writeArea (statusOffset n) w, ?_⟩
    · simp only [State.line_refreshAttn, State.line_setLine_same, LineRecord.seen, hc]
      rfl
    · refine (State.line_setLine_other _ _ hmn).trans ((State.line_give _ _ m).trans ?_)
      refine (State.line_setLine_other _ _ hmn).trans ?_
      exact State.line_updLine_other _ _ hmn
    · exact (((((s.frame_writeArea (statusOffset n) w).mono (by decide)).step
        (State.frame_leaveQueue _ n)).step (State.frame_setLine _ n _)).step
          (State.frame_give _ _)).step (State.frame_setLine _ n _) |>.step (State.frame_refreshAttn _)
  · rw [State.statusWritten_answered hst hk hc hl]
    refine ⟨?_, fun m hmn => ?_, ?_, fun j hj => ?_, s.givenOnly_give (.promptConnect n),
      s.readMem_writeArea_same (statusOffset n) w hm, s.otherWords_writeArea (statusOffset n) w, ?_⟩
    · simp only [State.line_refreshAttn, State.line_setLine_same, LineRecord.seen, hc]
      rfl
    · refine (State.line_setLine_other _ _ hmn).trans ((State.line_give _ _ m).trans ?_)
      exact (State.line_setLine_other _ _ hmn)
    · simp [Config.ticksPerSecond]
    · simp [State.ctx_updCtx_other _ _ hj]
    · exact (((((s.frame_writeArea (statusOffset n) w).mono (by decide)).step
        (State.frame_updCtx _ k _)).step (State.frame_setLine _ n _)).step
          (State.frame_give _ _)).step (State.frame_setLine _ n _) |>.step (State.frame_refreshAttn _)

/-! ## Short ticks (R3, R42, R100) -/

theorem Context.tick_eq (c : Context) :
    c.tick = { c with signOnTime :=
      if c.holder = none then c.signOnTime else c.signOnTime.map (· - 1) } := by
  by_cases h : c.holder = none
  · rw [if_pos h]
    exact if_neg (by simp [h])
  · simp [Context.tick, tickTimer, h, Option.isSome_iff_ne_none.mpr h]

/-- Settles O42. -/
theorem aShortTickRunsTheTimers : Obligations.AShortTickRunsTheTimers := by
  intro s hrun
  refine ⟨fun hd => ?_, fun hd => .of_event State.shortTicked rfl hrun ?_⟩
  · exact .unchanged (f := State.shortTicked) rfl hrun (if_neg (by simp [hd]))
  have running : s.meter.divisor.isSome = true := Option.isSome_iff_ne_none.mpr hd
  have meter : s.shortTicked.refreshAttn.meter = s.meter.countShortTick :=
    State.meter_shortTicked running
  have second : Config.ticksPerSecond = 100 := rfl
  rw [meter]
  refine ⟨State.line_shortTicked running, fun k => ?_, fun h => ?_, fun h => ?_, ?_, ?_, ?_,
    s.frame_shortTicked.step (State.frame_refreshAttn _)⟩
  · exact (State.ctx_shortTicked running k).trans (Context.tick_eq _)
  all_goals simp only [Meter.countShortTick, second]
  · simp [h]
  · simp [h]
  all_goals split <;> rfl

end Sys2Proof.Machine
end

section
/-!
SUPPORT. Grant evaluations (R29 to R31): what they read, when they stop, and what they leave.
-/

namespace Sys2Proof.Machine

-- One proof after another: a default `by` argument waits for every earlier proof of the text.
set_option Elab.async false

/-! ## What grants read -/

/-- What a grant evaluation reads is the same in two states. -/
structure GrantSame (u v : State) : Prop where
  lines : v.lines = u.lines
  contexts : v.contexts = u.contexts
  answerQueue : v.answerQueue = u.answerQueue
  plan : v.plan = u.plan
  ring : Block.ring.same u v
  posting : v.journal.queue = u.journal.queue
  sessions : v.meter.sessions = u.meter.sessions
  notices : v.attention.queue 6 = u.attention.queue 6

theorem GrantSame.refl (u : State) : GrantSame u u :=
  ⟨rfl, rfl, rfl, rfl, ⟨rfl, rfl, rfl, rfl, rfl⟩, rfl, rfl, rfl⟩

theorem GrantSame.line {u v : State} (h : GrantSame u v) (n : LineNo) : v.line n = u.line n := by
  simp only [State.line, h.lines]

theorem GrantSame.ctx {u v : State} (h : GrantSame u v) (k : CtxNo) : v.ctx k = u.ctx k := by
  simp only [State.ctx, h.contexts]

theorem GrantSame.credit {u v : State} (h : GrantSame u v) : v.credit = u.credit := by
  obtain ⟨hcap, -, -, hvis, -⟩ := h.ring
  simp only [State.credit, State.claims, State.heldContexts, State.openSessions, State.session, h.ctx,
    h.sessions, h.posting, hcap, hvis]

theorem GrantSame.nextGrant {u v : State} (h : GrantSame u v) : v.nextGrant = u.nextGrant := by
  simp only [State.nextGrant, State.freeContext, State.eligibleLine, h.plan, h.credit, h.ctx,
    h.answerQueue, h.line]

/-- A fall of credit is reported alike, to the same JOURNAL queue (R128). -/
theorem GrantSame.reportCreditFall {u v : State} (h : GrantSame u v) (b : Nat) :
    GrantSame (u.reportCreditFall b) (v.reportCreditFall b) := by
  obtain ⟨-, -, -, -, hlow⟩ := h.ring
  simp only [State.reportCreditFall, h.credit, hlow]
  split
  · obtain ⟨hl, hc, hq, hp, hr, hj, hx, hn⟩ := h
    exact ⟨hl, hc, hq, hp, hr, hj, hx,
      (State.queue_give v .journalCreditLow).trans
        ((congrArg (queueNotice · .journalCreditLow) hn).trans
          (State.queue_give u .journalCreditLow).symm)⟩
  · exact h

theorem GrantSame.grant {u v : State} (h : GrantSame u v) (k : CtxNo) (n : LineNo) :
    GrantSame (u.grant k n) (v.grant k n) := by
  simp only [State.grant, h.credit]
  refine GrantSame.reportCreditFall ?_ _
  obtain ⟨hl, hc, hq, hp, hr, hj, hx, hn⟩ := h
  refine ⟨?_, ?_, ?_, hp, hr, hj, hx, hn⟩
  · simp [State.line, hl, hp]
  · simp [hc]
  · simp [hq]

theorem GrantSame.evaluateGrants {u v : State} (h : GrantSame u v) :
    GrantSame u.evaluateGrants v.evaluateGrants := by
  have go : ∀ fuel u v, GrantSame u v → GrantSame (State.grants fuel u) (State.grants fuel v) := by
    intro fuel
    induction fuel with
    | zero => exact fun u v h => h
    | succ m ih =>
      intro u v h
      simp only [State.grants, h.nextGrant]
      split
      · exact ih _ _ (h.grant _ _)
      · exact h
  exact go 8 u v h

/-! ## Held contexts and credit (R28, R127) -/

/-- One more element meets a test that differs at one element of the list. -/
theorem length_filter_flip {α : Type} {p q : α → Bool} {k : α} (hp : p k = false) (hq : q k = true)
    (h : ∀ j, j ≠ k → q j = p j) {l : List α} (nodup : l.Nodup) (hk : k ∈ l) :
    (l.filter q).length = (l.filter p).length + 1 := by
  induction l with
  | nil => cases hk
  | cons a l ih =>
    obtain ⟨ha, hl⟩ := List.nodup_cons.mp nodup
    by_cases hak : a = k
    · subst hak
      have same : l.filter q = l.filter p :=
        List.filter_congr fun j hj => h j fun e => ha (e ▸ hj)
      simp [hp, hq, same]
    · have := ih hl ((List.mem_cons.mp hk).resolve_left (Ne.symm hak))
      simp only [List.filter_cons, h a hak]
      split
      · simp [this]
      · exact this

theorem State.heldContexts_grant {s : State} {k : CtxNo} {n : LineNo}
    (h : (s.ctx k).holder = none) : (s.grant k n).heldContexts = s.heldContexts + 1 := by
  have others := State.otherContexts_of_contexts (s.contexts_grant k n)
  have own := State.ctx_of_contexts (s.contexts_grant k n)
  refine length_filter_flip (k := k) (by simp [h]) (by simp [own, Context.fresh])
    (fun j hj => by rw [others j hj]) (List.nodup_finRange 8) (List.mem_finRange k)

theorem State.heldContexts_le (s : State) : s.heldContexts ≤ 8 := by
  refine (List.length_filter_le _ _).trans ?_
  simp

/-- Where all eight contexts are held, none is FREE. -/
theorem State.freeContext_of_full {s : State} (h : s.heldContexts = 8) : s.freeContext = none := by
  have all : ∀ k ∈ List.finRange 8, (s.ctx k).holder.isSome = true :=
    List.length_filter_eq_length_iff.mp (by simpa [State.heldContexts] using h)
  refine List.find?_eq_none.mpr fun k hk => ?_
  have := all k hk
  cases hh : (s.ctx k).holder <;> simp_all

/-! ## Evaluations end (R30) -/

/-- Eight grants are enough: each holds one more of the eight contexts. -/
theorem State.nextGrant_evaluateGrants (s : State) : s.evaluateGrants.nextGrant = none := by
  have go : ∀ fuel (t : State), 8 ≤ t.heldContexts + fuel → (State.grants fuel t).nextGrant = none := by
    intro fuel
    induction fuel with
    | zero =>
      intro t ht
      have full := State.freeContext_of_full (s := t) (by have := t.heldContexts_le; omega)
      cases hg : t.nextGrant with
      | none => exact hg
      | some kn =>
        obtain ⟨-, -, hfree, -⟩ := State.nextGrant_some hg
        rw [full] at hfree
        cases hfree
    | succ m ih =>
      intro t ht
      simp only [State.grants]
      split
      · rename_i k n hg
        obtain ⟨-, -, hfree, -⟩ := State.nextGrant_some hg
        refine ih _ ?_
        rw [State.heldContexts_grant (State.holder_of_freeContext hfree)]
        omega
      · assumption
  exact go 8 s (by omega)

/-! ## What evaluations leave (R29 to R31, R128) -/

/-- Giving an entry twice gives it once (R142). -/
theorem queueNotice_queueNotice (q : List Notice) (e : Notice) :
    queueNotice (queueNotice q e) e = queueNotice q e := by
  have again : ∀ l : List Notice, (∃ x ∈ l, x.subject = e.subject) →
      queueNotice l e = l.map fun x => if x.subject == e.subject then e else x := by
    intro l hl
    exact if_pos (by simpa using hl)
  by_cases h : ∃ x ∈ q, x.subject = e.subject
  · obtain ⟨x, hx, hs⟩ := h
    rw [again q ⟨x, hx, hs⟩, again _ ⟨e, List.mem_map.mpr ⟨x, hx, by simp [hs]⟩, rfl⟩, List.map_map]
    refine List.map_congr_left fun y _ => ?_
    by_cases hy : y.subject = e.subject <;> simp [hy]
  · have first : queueNotice q e = q ++ [e] := if_neg (by simpa using h)
    rw [first, again _ ⟨e, by simp, rfl⟩, List.map_append]
    have kept : (q.map fun x => if x.subject == e.subject then e else x) = q := by
      refine (List.map_congr_left fun x hx => ?_).trans q.map_id
      have hne : x.subject ≠ e.subject := fun hs => h ⟨x, hx, hs⟩
      simp [hne]
    rw [kept]
    simp

/-- A fall of credit gives JOURNAL(CREDIT_LOW) or nothing (R128). -/
theorem State.attention_reportCreditFall (s : State) (b : Nat) :
    (s.reportCreditFall b).attention = s.attention
      ∨ (s.reportCreditFall b).attention = (s.give .journalCreditLow).attention := by
  simp only [State.reportCreditFall]
  split
  · exact .inr rfl
  · exact .inl rfl

/-- What the grants made so far in an evaluation have done. -/
structure Granted (u t : State) : Prop where
  plan : t.plan = u.plan
  queue : t.answerQueue = u.answerQueue.filter (fun m => t.answerQueue.contains m)
  contexts : ∀ k, t.ctx k = u.ctx k
    ∨ (u.ctx k).holder = none
      ∧ ∃ m ∈ u.answerQueue, m ∉ t.answerQueue ∧ t.ctx k = Context.fresh (some m)
  lines : ∀ m, t.line m = u.line m ∧ (m ∈ u.answerQueue → m ∈ t.answerQueue)
    ∨ m ∈ u.answerQueue ∧ m ∉ t.answerQueue
      ∧ ∃ k, (u.ctx k).holder = none ∧ t.ctx k = Context.fresh (some m)
        ∧ t.line m = (u.line m).granted k u.plan.answerTime
  notices : t.attention.queue 6 = u.attention.queue 6
    ∨ t.attention.queue 6 = queueNotice (u.attention.queue 6) .journalCreditLow
  otherNotices : OtherQueues 6 u t

theorem Granted.refl (u : State) : Granted u u where
  plan := rfl
  queue := (List.filter_eq_self.mpr (by simp)).symm
  contexts _ := .inl rfl
  lines _ := .inl ⟨rfl, id⟩
  notices := .inl rfl
  otherNotices _ _ := rfl

/-- A line still on the answer queue is as it was. -/
theorem Granted.line_of_mem {u t : State} (h : Granted u t) {n : LineNo} (hn : n ∈ t.answerQueue) :
    t.line n = u.line n ∧ n ∈ u.answerQueue := by
  refine ⟨?_, ?_⟩
  · rcases h.lines n with ⟨hl, -⟩ | ⟨-, hn', -⟩
    · exact hl
    · exact absurd hn hn'
  · rw [h.queue] at hn
    exact List.mem_of_mem_filter hn

/-- A context still FREE is as it was. -/
theorem Granted.ctx_of_free {u t : State} (h : Granted u t) {k : CtxNo} (hk : (t.ctx k).holder = none) :
    t.ctx k = u.ctx k := by
  rcases h.contexts k with hc | ⟨-, m, -, -, hc⟩
  · exact hc
  · rw [hc] at hk
    cases hk

theorem Granted.step {u t : State} (h : Granted u t) {k : CtxNo} {n : LineNo}
    (hg : t.nextGrant = some (k, n)) : Granted u (t.grant k n) := by
  obtain ⟨-, -, hfree, helig⟩ := State.nextGrant_some hg
  have hnone := State.holder_of_freeContext hfree
  have hmem := State.mem_of_eligibleLine helig
  obtain ⟨hline, hin⟩ := h.line_of_mem hmem
  have hctx := h.ctx_of_free hnone
  have othersL := State.otherLines_of_lines (t.lines_grant k n)
  have ownL := State.line_of_lines (t.lines_grant k n)
  have othersC := State.otherContexts_of_contexts (t.contexts_grant k n)
  have ownC := State.ctx_of_contexts (t.contexts_grant k n)
  have queue := t.answerQueue_grant k n
  have left : n ∉ (t.grant k n).answerQueue := by simp [queue]
  have gone : ∀ {m}, m ∉ t.answerQueue → m ∉ (t.grant k n).answerQueue := by simp_all
  have kept : ∀ {j m}, t.ctx j = Context.fresh (some m) → (t.grant k n).ctx j = Context.fresh (some m) := by
    intro j m hj
    rw [othersC j (by rintro rfl; rw [hj] at hnone; cases hnone), hj]
  have attention : (t.grant k n).attention = t.attention
      ∨ (t.grant k n).attention = (t.give .journalCreditLow).attention :=
    State.attention_reportCreditFall _ _
  refine ⟨(t.frame_grant k n .plan (by decide)).trans h.plan, ?_, fun j => ?_, fun m => ?_, ?_,
    fun j hj => ?_⟩
  · rw [queue]
    conv_lhs => rw [h.queue]
    rw [List.filter_filter]
    refine List.filter_congr fun m _ => ?_
    by_cases hm : m = n <;> simp [hm]
  · by_cases hj : j = k
    · subst hj
      exact .inr ⟨hctx ▸ hnone, n, hin, left, ownC⟩
    · rcases h.contexts j with hc | ⟨hn, m, hm, hout, hc⟩
      · exact .inl ((othersC j hj).trans hc)
      · exact .inr ⟨hn, m, hm, gone hout, kept hc⟩
  · by_cases hm : m = n
    · subst hm
      refine .inr ⟨hin, left, k, hctx ▸ hnone, ownC, ?_⟩
      rw [ownL, hline, h.plan]
    · rw [othersL m hm]
      rcases h.lines m with ⟨hl, hq⟩ | ⟨hmu, hout, j, hj, hc, hl⟩
      · exact .inl ⟨hl, fun hu => by simp [queue, hq hu, hm]⟩
      · exact .inr ⟨hmu, gone hout, j, hj, kept hc, hl⟩
  · rcases attention with e | e <;> rw [e]
    · exact h.notices
    · refine .inr ((State.queue_give t .journalCreditLow).trans ?_)
      change queueNotice (t.attention.queue 6) _ = _
      rcases h.notices with e | e <;> rw [e]
      exact queueNotice_queueNotice _ _
  · rcases attention with e | e <;> rw [e]
    · exact h.otherNotices j hj
    · exact (State.otherQueues_give t .journalCreditLow j hj).trans (h.otherNotices j hj)

theorem State.granted_evaluateGrants (u : State) : Granted u u.evaluateGrants :=
  State.evaluateGrants_induction (P := Granted u) (Granted.refl u) fun _ _ _ h hg => h.step hg

/-- An evaluation made on a state in which grants read the same makes the grants (R30). -/
theorem GrantSame.grantsMade {u v : State} (h : GrantSame u v) :
    GrantsMade u v.evaluateGrants.refreshAttn := by
  have e := h.evaluateGrants
  have g := u.granted_evaluateGrants
  have queue : v.evaluateGrants.refreshAttn.answerQueue = u.evaluateGrants.answerQueue := e.answerQueue
  have notices : v.evaluateGrants.refreshAttn.attention.queue 6 = u.evaluateGrants.attention.queue 6 :=
    e.notices
  have line : ∀ m, v.evaluateGrants.refreshAttn.line m = u.evaluateGrants.line m := e.line
  have ctx : ∀ k, v.evaluateGrants.refreshAttn.ctx k = u.evaluateGrants.ctx k := e.ctx
  refine ⟨⟨e.lines, e.contexts, queue, notices⟩, v.nextGrant_evaluateGrants, ?_, fun k => ?_,
    fun m => ?_, ?_⟩
  · rw [queue]
    exact g.queue
  · rw [queue, ctx]
    exact g.contexts k
  · rw [queue, line]
    simp only [ctx]
    exact g.lines m
  · rw [notices]
    exact g.notices

end Sys2Proof.Machine
end

section
/-!
PROOFS. The causes of a dialogue clear and what it does (R36).
-/

namespace Sys2Proof.Machine

-- One proof after another: a default `by` argument waits for every earlier proof of the text.
set_option Elab.async false

/-! ## The queues of a dialogue clear (R36 steps 1 to 5) -/

theorem State.queues_dialogueEnded (s : State) (n : LineNo) (reason : RejectReason)
    (hang : Option Manner) (j : ClassNo) :
    (s.dialogueEnded n reason hang).attention.queue j =
      ((s.give (.rejected n reason)).withdrawPrompts n).attention.queue j := by
  have frame : SameBut [.lines, .contexts, .requests] ((s.give (.rejected n reason)).withdrawPrompts n)
      (s.dialogueEnded n reason hang) :=
    (((State.frame_releaseContext _ n).step (State.frame_hangUpFor _ n hang)).step
      (State.frame_enterClearing _ n))
  exact frame.queue (by decide) j

theorem State.rejected_dialogueEnded (s : State) (n : LineNo) (reason : RejectReason)
    (hang : Option Manner) : (s.dialogueEnded n reason hang).attention.queue 2 =
      queueNotice (s.attention.queue 2) (.rejected n reason) := by
  rw [s.queues_dialogueEnded n reason hang]
  refine Eq.trans ?_ (State.queue_give s (.rejected n reason))
  simp [Attention.queue_setQueue_other, Notice.cls]

theorem State.prompts_dialogueEnded (s : State) (n : LineNo) (reason : RejectReason)
    (hang : Option Manner) {j : ClassNo} (hj : j = 3 ∨ j = 4) :
    (s.dialogueEnded n reason hang).attention.queue j = withoutLine n (s.attention.queue j) := by
  rw [s.queues_dialogueEnded n reason hang]
  rcases hj with rfl | rfl <;> simp [Attention.queue_setQueue_other, Notice.cls]

theorem State.otherQueues_dialogueEnded (s : State) (n : LineNo) (reason : RejectReason)
    (hang : Option Manner) {j : ClassNo} (h2 : j ≠ 2) (h3 : j ≠ 3) (h4 : j ≠ 4) :
    (s.dialogueEnded n reason hang).attention.queue j = s.attention.queue j := by
  rw [s.queues_dialogueEnded n reason hang]
  simp [Attention.queue_setQueue_other, Notice.cls, h2, h3, h4]

/-! ## The clear as a whole (R36) -/

/-- What the clear's grants read is what they read with the line and its context as the clear leaves
them. -/
theorem State.grantSame_dialogueEnded {s : State} {n : LineNo} {k : CtxNo} (reason : RejectReason)
    (hang : Option Manner) (hk : (s.line n).context = some k) :
    GrantSame ((s.setLine n
        { (s.line n).cleared (slotAfter s.plan.politeLimit (s.line n).forced hang) with
          context := none }).setCtx k { s.ctx k with holder := none, signOnTime := none })
      (s.dialogueEnded n reason hang) := by
  have frame := s.frame_dialogueEnded n reason hang
  have posting := frame .posting (by decide)
  exact ⟨State.lines_dialogueEnded reason hang hk, State.contexts_dialogueEnded reason hang hk,
    s.answerQueue_dialogueEnded n reason hang, frame .plan (by decide), frame .ring (by decide),
    posting.1, frame .sessions (by decide),
    s.otherQueues_dialogueEnded n reason hang (by decide) (by decide) (by decide)⟩

/-- No evaluation grants anything while no line rings. -/
theorem State.evaluateGrants_of_noOneRings {s : State} (h : NoOneRings s) : s.evaluateGrants = s := by
  refine State.evaluateGrants_of_none ?_
  cases hg : s.nextGrant with
  | none => rfl
  | some kn =>
    have hm := State.mem_of_eligibleLine (State.nextGrant_some hg).2.2.2
    rw [h] at hm
    cases hm

theorem State.dialogueCleared {s : State} {n : LineNo} {k : CtxNo} (reason : RejectReason)
    (hang : Option Manner) (hk : (s.line n).context = some k) (hq : n ∉ s.answerQueue) :
    DialogueCleared n k reason hang s (s.clearDialogue n reason hang).refreshAttn := by
  have ended := State.lines_dialogueEnded reason hang hk
  have freed := State.contexts_dialogueEnded reason hang hk
  have directory := State.directory_dialogueEnded reason hang hk
  have queue := s.answerQueue_dialogueEnded n reason hang
  have granted := State.granted_evaluateGrants (s.dialogueEnded n reason hang)
  have requests : ∀ b : Block, b = .requests ∨ b ∉ grantBlocks →
      b.same (s.dialogueEnded n reason hang) (s.dialogueEnded n reason hang).evaluateGrants :=
    fun b hb => State.frame_evaluateGrants _ b (by rcases hb with rfl | hb <;> [decide; exact hb])
  obtain ⟨hqueue, hserv⟩ := requests .requests (.inl rfl)
  refine ⟨?_, (State.grantSame_dialogueEnded reason hang hk).grantsMade,
    (granted.otherNotices 2 (by decide)).trans (s.rejected_dialogueEnded n reason hang),
    (granted.otherNotices 3 (by decide)).trans (s.prompts_dialogueEnded n reason hang (.inl rfl)),
    (granted.otherNotices 4 (by decide)).trans (s.prompts_dialogueEnded n reason hang (.inr rfl)),
    fun j h2 h3 h4 h6 => (granted.otherNotices j h6).trans
      (s.otherQueues_dialogueEnded n reason hang h2 h3 h4), hserv.trans ?_, hqueue.trans ?_, ?_,
    fun none => ?_⟩
  · rcases granted.lines n with ⟨hl, -⟩ | ⟨hn, -⟩
    · exact hl.trans (State.line_of_lines ended)
    · exact absurd (queue ▸ hn) hq
  · rw [directory]
  · rw [directory]
  · exact (s.frame_clearDialogue n reason hang).step (State.frame_refreshAttn _)
  · have still : s.clearDialogue n reason hang = s.dialogueEnded n reason hang :=
      State.evaluateGrants_of_noOneRings (queue.trans none)
    rw [still]
    exact ⟨State.ctx_of_contexts freed, State.otherContexts_of_contexts freed,
      State.otherLines_of_lines ended, queue.trans none,
      s.otherQueues_dialogueEnded n reason hang (by decide) (by decide) (by decide)⟩

theorem DialogueCleared.frame {s t : State} {n : LineNo} {k : CtxNo} {reason : RejectReason}
    {hang : Option Manner} (h : DialogueCleared n k reason hang s t) : SameBut clearBlocks s t := by
  obtain ⟨-, -, -, -, -, -, -, -, frame, -⟩ := h
  exact frame

/-- A doubt that ended on the line is not seen in the clear: a cleared line has none (R15). -/
theorem DialogueCleared.of_doubtEnded {s t : State} {n : LineNo} {k : CtxNo} {reason : RejectReason}
    {hang : Option Manner}
    (h : DialogueCleared n k reason hang (s.setLine n { s.line n with doubt := none }) t) :
    DialogueCleared n k reason hang s t := by
  obtain ⟨hl, hg, h2, h3, h4, hj, hserv, hqueue, frame, hnone⟩ := h
  simp only [State.line_setLine_same, State.setLine_setLine] at hl hg
  refine ⟨hl, hg, h2, h3, h4, hj, hserv, hqueue, ?_, fun none => ?_⟩
  · exact ((s.frame_setLine n _).mono (by decide)).trans frame
  · obtain ⟨hc, hoc, hol, hq, h6⟩ := hnone none
    exact ⟨hc, hoc, fun m hm => (hol m hm).trans (State.line_setLine_other _ _ hm), hq, h6⟩

/-! ## The causes of a clear -/

theorem LineState.inDialogue_of_mem {x : LineState}
    (h : x = .answering ∨ x = .name ∨ x = .password ∨ x = .checking) : x.inDialogue = true := by
  rcases h with rfl | rfl | rfl | rfl <;> rfl

theorem State.modeLoaded_dialogue {s : State} {n : LineNo} {m : LineMode} (h : (s.line n).mode ≠ m)
    (hst : (s.line n).state = .answering ∨ (s.line n).state = .name ∨ (s.line n).state = .password
      ∨ (s.line n).state = .checking) :
    s.modeLoaded n m =
      (s.updLine n fun r => { r with mode := m }).clearDialogue n .lineOff (some .rude) := by
  rcases hst with hst | hst | hst | hst <;> simp [State.modeLoaded, h, hst]

theorem State.hangRequested_dialogue {s : State} {n : LineNo} (m : Manner)
    (hst : (s.line n).state = .answering ∨ (s.line n).state = .name ∨ (s.line n).state = .password
      ∨ (s.line n).state = .checking) :
    s.hangRequested n m = s.clearDialogue n .forced (some .rude) := by
  rcases hst with hst | hst | hst | hst <;> simp [State.hangRequested, hst]

/-- An event that clears a dialogue. -/
theorem Completes.dialogueCleared {i : Instr} {s u : State} {f : State → State} {n : LineNo}
    {k : CtxNo} {reason : RejectReason} {hang : Option Manner} (hexec : exec i s = event f s)
    (h : Running s) (hf : f s = u.clearDialogue n reason hang) (hk : (u.line n).context = some k)
    (hq : n ∉ u.answerQueue) : Completes i s (DialogueCleared n k reason hang u) :=
  Completes.of_event f hexec h (hf ▸ State.dialogueCleared reason hang hk hq)

/-- Settles O20: each cause makes the clear with its own reason and HANG_UP. -/
theorem theCausesOfADialogueClear : Obligations.TheCausesOfADialogueClear := by
  intro n k s hrun hq hk hst
  have hd := LineState.inDialogue_of_mem hst
  refine ⟨fun hdoubt => ?_, fun hans ht => ?_, fun hh ht => ?_, ?_, fun w hl hh => ?_,
    fun w m hl hh hm hmode => ?_⟩
  · refine (Completes.dialogueCleared (f := fun s => s.doubtExpired n)
      (u := s.setLine n { s.line n with doubt := none }) rfl hrun ?_ (by simpa using hk) hq).imp
      fun _ => DialogueCleared.of_doubtEnded
    simp [State.doubtExpired, hdoubt, State.updLine_eq, hd]
  · exact .dialogueCleared (f := fun s => s.answerExpired n) rfl hrun (if_pos ⟨hans, ht⟩) hk hq
  · refine .dialogueCleared (f := fun s => s.signOnExpired k) rfl hrun ?_ hk hq
    simp [State.signOnExpired, hh, ht]
  · refine .dialogueCleared (f := fun s => s.processorCommand n hangUpCode)
      (u := s.writeArea (commandOffset n) 0x0002#16) rfl hrun ?_ hk hq
    have hne : (s.line n).state ≠ .signedOn := by
      intro e
      rw [e] at hd
      cases hd
    simp [State.processorCommand, State.processorHangUp, hne, hd, hangUpCode]
  · have hang : ∃ m, settingHang w = .request m := by
      rcases hh with hh | hh
      · exact ⟨_, settingHang_polite hh⟩
      · exact ⟨_, settingHang_rude hh⟩
    obtain ⟨m, hm⟩ := hang
    exact .dialogueCleared (f := fun s => s.writeSetting n w) rfl hrun
      ((State.writeSetting_hang hl hm).trans (State.hangRequested_dialogue m hst)) hk hq
  · refine .dialogueCleared (f := fun s => s.writeSetting n w) rfl hrun
      ((State.writeSetting_mode hl hm (settingHang_none hh)).trans
        (State.modeLoaded_dialogue hmode hst)) ?_ hq
    simpa using hk

end Sys2Proof.Machine
end

section
/-!
PROOFS. Breaks and noise in a dialogue (R46, R49, R50).
-/

namespace Sys2Proof.Machine

-- One proof after another: a default `by` argument waits for every earlier proof of the text.
set_option Elab.async false

/-! ## Marked entries (R9, R43, R46) -/

/-- FRAMING is one of an entry's marks (R9). -/
theorem entryMarks_of_framing {w : Word} (h : w.getLsbD 9 = true) : entryMarks w ≠ 0#3 := by
  intro e
  have framing : (entryMarks w).getLsbD 1 = w.getLsbD 9 := by simp [entryMarks]
  rw [e, h] at framing
  simp at framing

theorem entryIsBreak_iff {w : Word} :
    entryIsBreak w = true ↔ w.getLsbD 9 = true ∧ entryChar w = 0#8 := by
  simp [entryIsBreak]

/-- A marked entry reaches memory without its character while a password is typed (R46). -/
theorem State.entryInMemory_marked (s : State) (n : LineNo) {w : Word} (h : entryMarks w ≠ 0#3) :
    s.entryInMemory n w =
      if (s.line n).state = .password then w.extractLsb' 8 8 ++ s.fill else w := by
  have masks : mustMask w = true := by simp [mustMask, h]
  simp [State.entryInMemory, masks, maskedEntry]

theorem State.dialogueEntry_break {s : State} {n : LineNo} (k : CtxNo) {w : Word}
    (hst : (s.line n).state = .name ∨ (s.line n).state = .password) (h : entryIsBreak w = true) :
    s.dialogueEntry k n w = s.restartDialogue k n := by
  rcases hst with hst | hst <;> simp [State.dialogueEntry, hst, h]

theorem State.dialogueEntry_noise {s : State} {n : LineNo} (k : CtxNo) {w : Word}
    (hst : (s.line n).state = .name ∨ (s.line n).state = .password) (h : entryIsBreak w = false)
    (hm : entryMarks w ≠ 0#3) : s.dialogueEntry k n w = s.countNoise k n := by
  rcases hst with hst | hst <;> simp [State.dialogueEntry, hst, h, hm]

/-- An entry on a line in NAME or PASSWORD: the word in memory, its marks, then the dialogue (R9). -/
theorem State.receive_dialogue {s : State} {n : LineNo} {k : CtxNo} (i : Fin 32) (w : Word)
    (hst : (s.line n).state = .name ∨ (s.line n).state = .password)
    (hk : (s.line n).context = some k) :
    s.receive n i w = State.dialogueEntry ((s.writeArea (receiveOffset n i)
      (s.entryInMemory n w)).setLine n ((s.line n).marked w)) k n w := by
  rcases hst with hst | hst <;>
    simp [State.receive, hst, hk, State.addMarks_eq, LineRecord.marked]

/-! ## Breaks and noise (R49, R50) -/

theorem State.restartDialogue_eq (s : State) (k : CtxNo) (n : LineNo) :
    s.restartDialogue k n = ((s.setLine n { s.line n with state := .name }).updCtx k
      Context.restarted).give (.promptRestart n) := rfl

theorem State.countNoise_few {s : State} {k : CtxNo} (n : LineNo) (h : (s.ctx k).noise < 7) :
    s.countNoise k n = s.updCtx k fun c => { c with noise := c.noise + 1 } :=
  if_neg (by rw [State.ctx_updCtx_same]; dsimp only; omega)

theorem State.countNoise_eighth {s : State} {k : CtxNo} (n : LineNo) (h : 7 ≤ (s.ctx k).noise) :
    s.countNoise k n = (s.updCtx k fun c => { c with noise := c.noise + 1 }).clearDialogue n .noisy
      (some .rude) :=
  if_pos (by rw [State.ctx_updCtx_same]; dsimp only; omega)

/-- Settles O32: the break, and the noise below and at its limit. -/
theorem aBreakRestartsAndNoiseCounts : Obligations.ABreakRestartsAndNoiseCounts := by
  intro n i w k s hrun hm hk hst o a v marked x
  have contexts : ∀ r c, OtherContexts k s (State.updCtx ((s.writeArea o v).setLine n r) k c) :=
    fun r c => State.otherContexts_updCtx ((s.writeArea o v).setLine n r) k c
  have others : ∀ r, OtherLines n s ((s.writeArea o v).setLine n r) := fun r =>
    State.otherLines_setLine (s.writeArea o v) n r
  have same : (s.writeArea o v).readMem a = v := s.readMem_writeArea_same o v hm
  have words : OtherWords a s (s.writeArea o v) := s.otherWords_writeArea o v
  have frame : ∀ r, SameBut [.mem, .lines] s ((s.writeArea o v).setLine n r) := fun r =>
    ((s.frame_writeArea o v).mono (by decide)).step (State.frame_setLine _ n r)
  have typed : (((s.writeArea o v).setLine n marked).line n).state = .name
      ∨ (((s.writeArea o v).setLine n marked).line n).state = .password := by
    rw [State.line_setLine_same]
    exact hst
  have found : entryMarks w ≠ 0#3 →
      s.receive n i w = State.dialogueEntry ((s.writeArea o v).setLine n marked) k n w := by
    intro hmarks
    rw [State.receive_dialogue i w hst hk, s.entryInMemory_marked n hmarks]
    rfl
  refine ⟨fun hf hc => ?_, fun hmarks hb => ?_⟩
  · have e := (found (entryMarks_of_framing hf)).trans
      (State.dialogueEntry_break k typed (entryIsBreak_iff.mpr ⟨hf, hc⟩))
    refine .of_event (fun s => s.receive n i w) rfl hrun ?_
    rw [e, State.restartDialogue_eq, State.setLine_setLine, State.line_setLine_same]
    refine ⟨by simp, others _, by simp [Context.restarted, x], contexts _ _,
      s.givenOnly_give (.promptRestart n), same, words, ?_⟩
    exact ((((frame _).mono (by decide)).step (State.frame_updCtx _ k _)).step
      (State.frame_give _ _)).step (State.frame_refreshAttn _)
  · have notBreak : entryIsBreak w = false := by
      refine Bool.eq_false_iff.mpr fun e => ?_
      obtain ⟨hf, hc⟩ := entryIsBreak_iff.mp e
      rcases hb with hb | hb
      · rw [hf] at hb
        cases hb
      · exact hb hc
    have e := (found hmarks).trans (State.dialogueEntry_noise k typed notBreak hmarks)
    refine ⟨fun few => ?_, fun many hq => ?_⟩
    · refine .of_event (fun s => s.receive n i w) rfl hrun ?_
      rw [e, State.countNoise_few (s := (s.writeArea o v).setLine n marked) n few]
      refine ⟨by simp, others _, by simp [x],
        contexts marked fun c => { c with noise := c.noise + 1 }, same, words, ?_⟩
      exact (((frame _).mono (by decide)).step (State.frame_updCtx _ k _)).step
        (State.frame_refreshAttn _)
    · rw [State.countNoise_eighth (s := (s.writeArea o v).setLine n marked) n many] at e
      refine (Completes.dialogueCleared (f := fun s => s.receive n i w) (k := k) rfl hrun e
        (by simpa [marked] using hk) hq).imp fun t cleared => ?_
      have read : ∀ b, t.readMem b = (s.writeArea o v).readMem b :=
        cleared.frame.readMem (by decide)
      exact ⟨(read a).trans same, fun b hb => (read b).trans (words b hb), cleared⟩

end Sys2Proof.Machine
end

section
/-!
PROOFS. Ring arrivals (R5, R25, R31).
-/

namespace Sys2Proof.Machine

-- One proof after another: a default `by` argument waits for every earlier proof of the text.
set_option Elab.async false

/-! ## One grant (R29, R31, R128) -/

theorem State.nextGrant_of_some {s : State} {k : CtxNo} {n : LineNo} (hp : s.plan.state = .planned)
    (hc : 1 ≤ s.credit) (hk : s.freeContext = some k) (hn : s.eligibleLine = some n) :
    s.nextGrant = some (k, n) := by
  simp [State.nextGrant, hp, hc, hk, hn]

theorem State.freeContext_of_first {s : State} {k : CtxNo} (hk : (s.ctx k).holder = none)
    (first : ∀ j, j < k → (s.ctx j).holder ≠ none) : s.freeContext = some k := by
  refine List.find?_eq_some_iff_getElem.mpr ⟨by simp [hk], k.val, by simp, by simp, fun j hj => ?_⟩
  have := first ⟨j, by omega⟩ hj
  simpa [Option.isSome_iff_ne_none] using this

/-- No grant is allowed without credit, without a FREE context, or without an eligible line (R29). -/
theorem State.nextGrant_none {s : State} (h : s.credit = 0 ∨ (∀ k, (s.ctx k).holder ≠ none)
    ∨ ∀ m ∈ s.answerQueue, (s.line m).recordPending = true) : s.nextGrant = none := by
  cases hg : s.nextGrant with
  | none => rfl
  | some kn =>
    obtain ⟨-, hc, hfree, helig⟩ := State.nextGrant_some hg
    exfalso
    rcases h with h | h | h
    · omega
    · exact h _ (State.holder_of_freeContext hfree)
    · have pending : (!(s.line kn.2).recordPending) = true :=
        List.find?_some (p := fun n => !(s.line n).recordPending) helig
      simp [h _ (State.mem_of_eligibleLine helig)] at pending

/-- A grant takes one of the credit (R127). -/
theorem State.credit_grant {s : State} {k : CtxNo} (n : LineNo) (h : (s.ctx k).holder = none) :
    (s.grant k n).credit = s.credit - 1 := by
  have frame := s.frame_grant k n
  obtain ⟨hcap, -, -, hvis, -⟩ := frame .ring (by decide)
  obtain ⟨hqueue, -⟩ := frame .posting (by decide)
  simp only [State.credit, State.claims, State.heldContexts_grant h, State.openSessions, hcap, hvis,
    hqueue, frame.session]
  omega

theorem State.credit_reportCreditFall (s : State) (b : Nat) :
    (s.reportCreditFall b).credit = s.credit := by
  simp only [State.reportCreditFall]
  split <;> rfl

/-- A grant gives JOURNAL(CREDIT_LOW) as credit falls to the low mark (R128). -/
theorem State.attention_grant {s : State} {k : CtxNo} (n : LineNo) (h : (s.ctx k).holder = none) :
    (s.grant k n).attention =
      if s.journal.lowMark + 1 = s.credit then (s.give .journalCreditLow).attention
      else s.attention := by
  have fall : (s.grant k n).credit = (((s.setCtx k (Context.fresh (some n))).leaveQueue n).updLine n
      fun r => r.granted k s.plan.answerTime).credit := State.credit_reportCreditFall _ _
  rw [State.credit_grant n h] at fall
  have reported : (s.grant k n) = State.reportCreditFall (((s.setCtx k (Context.fresh (some n))).leaveQueue
      n).updLine n fun r => r.granted k s.plan.answerTime) s.credit := rfl
  rw [reported, State.reportCreditFall, ← fall]
  by_cases hlow : s.journal.lowMark + 1 = s.credit
  · rw [if_pos hlow, if_pos]
    · rfl
    · simp only [Bool.and_eq_true, decide_eq_true_eq]
      exact ⟨by change s.journal.lowMark < _; omega, by change _ ≤ s.journal.lowMark; omega⟩
  · rw [if_neg hlow, if_neg]
    · rfl
    · simp only [Bool.and_eq_true, decide_eq_true_eq]
      rintro ⟨habove, hat⟩
      change s.journal.lowMark < _ at habove
      change _ ≤ s.journal.lowMark at hat
      omega

/-- The evaluation that makes one grant and no more. -/
theorem State.evaluateGrants_of_one {s : State} {k : CtxNo} {n : LineNo}
    (h : s.nextGrant = some (k, n)) (last : (s.grant k n).nextGrant = none) :
    s.evaluateGrants = s.grant k n := by
  simp [State.evaluateGrants, State.grants, h, last]

/-! ## Ring arrivals (R5, R25) -/

/-- A ring on an idle watched line of a PLANNED part arrives (R5). -/
theorem State.ringRule_arrival {s : State} {n : LineNo} {w : Word} (hst : (s.line n).state = .idle)
    (hmode : (s.line n).mode = .watched) (hl : (s.line n).lastRing = false)
    (hp : s.plan.state = .planned) (hr : statusRing w = true) :
    s.ringRule n w = (s.queued n).evaluateGrants := by
  rw [← State.ringArrival_eq]
  simp [State.ringRule, hst, hmode, hl, hp, hr]

theorem State.line_queued (s : State) (n : LineNo) : (s.queued n).line n =
    { s.line n with state := .ringing, ringGone := some s.ringGoneTicks } :=
  State.line_updLine_same _ n _

theorem State.otherLines_queued (s : State) (n : LineNo) : OtherLines n s (s.queued n) :=
  fun _ h => State.line_updLine_other _ _ h

/-- A status write with a ring that arrives: the queueing and its grants, then what was last seen. -/
theorem State.statusWritten_arrival {s t : State} {n : LineNo} {w : Word}
    (hst : (s.line n).state = .idle) (hmode : (s.line n).mode = .watched)
    (hl : (s.line n).lastRing = false) (hp : s.plan.state = .planned) (hr : statusRing w = true)
    (hc : statusCarrier w = false ∨ (s.line n).lastCarrier = true)
    (ht : ((s.writeArea (statusOffset n) w).queued n).evaluateGrants = t)
    (hne : (t.line n).state ≠ .clearing) :
    s.statusWritten n w = t.setLine n ((t.line n).seen w) := by
  have arrives := (State.ringRule_arrival (s := s.writeArea (statusOffset n) w) hst hmode hl hp
    hr).trans ht
  rw [State.statusWritten_eq (by simp [hst]) (by simp [hst]) (State.carrierRule_quiet
    (s := s.writeArea (statusOffset n) w) (by simp [hst, LineState.doubts]) (.inr hc)) arrives,
    LineRecord.tested_of_ne (r := (t.line n).seen w) hne]

/-- The queueing of a line that is then granted at once: it alone is eligible (R29, R31). -/
theorem State.evaluateGrants_queued {s : State} {n : LineNo} {k : CtxNo}
    (hp : s.plan.state = .planned) (hc : 1 ≤ s.credit) (hk : (s.ctx k).holder = none)
    (first : ∀ j, j < k → (s.ctx j).holder ≠ none) (hq : n ∉ s.answerQueue)
    (hpend : ∀ m ∈ s.answerQueue, (s.line m).recordPending = true)
    (hnot : (s.line n).recordPending = false) :
    (s.queued n).evaluateGrants = (s.queued n).grant k n
      ∧ ((s.queued n).grant k n).answerQueue = s.answerQueue := by
  have queue : (s.queued n).answerQueue = s.answerQueue ++ [n] := rfl
  have pending : ∀ m ∈ s.answerQueue, ((s.queued n).line m).recordPending = true := fun m hm => by
    rw [s.otherLines_queued n m (ne_of_mem_of_not_mem hm hq)]
    exact hpend m hm
  have eligible : (s.queued n).eligibleLine = some n := by
    have older : s.answerQueue.find? (fun m => !((s.queued n).line m).recordPending) = none :=
      List.find?_eq_none.mpr fun m hm => by simp [pending m hm]
    rw [State.eligibleLine, queue, List.find?_append, older]
    simp [s.line_queued n, hnot]
  have left : ((s.queued n).grant k n).answerQueue = s.answerQueue := by
    have kept : s.answerQueue.filter (· != n) = s.answerQueue :=
      List.filter_eq_self.mpr fun m hm => by simpa using ne_of_mem_of_not_mem hm hq
    rw [State.answerQueue_grant, queue, List.filter_append, kept]
    simp
  refine ⟨State.evaluateGrants_of_one (State.nextGrant_of_some hp hc
    (State.freeContext_of_first hk first) eligible) (State.nextGrant_none (.inr (.inr fun m hm => ?_))),
    left⟩
  rw [left] at hm
  rw [State.otherLines_of_lines (State.lines_grant _ k n) m (ne_of_mem_of_not_mem hm hq)]
  exact pending m hm

/-- Settles O15: the queueing alone, and with the one grant it allows. -/
theorem aRingArrivalQueuesTheLine : Obligations.ARingArrivalQueuesTheLine := by
  intro n w s hrun hm hst hmode hl hp hr hc
  change statusRing w = true at hr
  change statusCarrier w = false ∨ _ at hc
  have frame := ((s.frame_writeArea (statusOffset n) w).mono (bs := [.mem, .lines, .answerQueue])
    (by decide)).step (State.frame_queued _ n)
  have same := s.readMem_writeArea_same (statusOffset n) w hm
  have words := s.otherWords_writeArea (statusOffset n) w
  have others : OtherLines n s ((s.writeArea (statusOffset n) w).queued n) :=
    State.otherLines_queued (s.writeArea (statusOffset n) w) n
  have own := State.line_queued (s.writeArea (statusOffset n) w) n
  refine ⟨fun hno => .of_event (fun s => s.statusWritten n w) rfl hrun ?_,
    fun k hcr hk first hq hpend hnot => .of_event (fun s => s.statusWritten n w) rfl hrun ?_⟩
  · have none : ((s.writeArea (statusOffset n) w).queued n).nextGrant = none := by
      refine State.nextGrant_none ?_
      rcases hno with h | h | h
      · exact .inl h
      · exact .inr (.inl h)
      · refine .inr (.inr fun m hmem => ?_)
        have pending := h m hmem
        by_cases hmn : m = n
        · subst hmn
          rw [own]
          exact pending
        · rw [others m hmn]
          exact pending
    rw [State.statusWritten_arrival hst hmode hl hp hr hc (State.evaluateGrants_of_none none)
      (by simp [own])]
    refine ⟨rfl, ?_, fun m hmn => ?_, same, words, ?_⟩
    · rw [State.line_refreshAttn, State.line_setLine_same, own, LineRecord.seen, hr]
      rfl
    · exact (State.line_setLine_other _ _ hmn).trans (others m hmn)
    · exact (frame.step (State.frame_setLine _ n _)).step (State.frame_refreshAttn _)
  · have free : (((s.writeArea (statusOffset n) w).queued n).ctx k).holder = none := hk
    obtain ⟨one, queue⟩ := State.evaluateGrants_queued (s := s.writeArea (statusOffset n) w) (n := n)
      hp hcr hk first hq hpend hnot
    have othersG := State.otherLines_of_lines (State.lines_grant
      ((s.writeArea (statusOffset n) w).queued n) k n)
    have ownG := State.line_of_lines (State.lines_grant
      ((s.writeArea (statusOffset n) w).queued n) k n)
    have contexts := State.contexts_grant ((s.writeArea (statusOffset n) w).queued n) k n
    have notices : (((s.writeArea (statusOffset n) w).queued n).grant k n).attention =
        if s.journal.lowMark + 1 = s.credit then (s.give .journalCreditLow).attention
        else s.attention := State.attention_grant n free
    have mem := (State.frame_grant ((s.writeArea (statusOffset n) w).queued n) k n).readMem (by decide)
    rw [State.statusWritten_arrival hst hmode hl hp hr hc one (by simp [ownG, LineRecord.granted])]
    refine ⟨queue, State.ctx_of_contexts contexts, State.otherContexts_of_contexts contexts, ?_,
      fun m hmn => ?_, (mem _).trans same, fun a ha => (mem a).trans (words a ha), ?_, fun j hj => ?_, ?_⟩
    · rw [State.line_refreshAttn, State.line_setLine_same, ownG, own, LineRecord.seen, hr]
      rfl
    · exact (State.line_setLine_other _ _ hmn).trans ((othersG m hmn).trans (others m hmn))
    · refine (congrArg (Attention.queue · 6) notices).trans ?_
      split
      · exact State.queue_give s .journalCreditLow
      · rfl
    · refine (congrArg (Attention.queue · j) notices).trans ?_
      split
      · exact State.otherQueues_give s .journalCreditLow j hj
      · rfl
    · exact (((frame.mono (by decide)).step (State.frame_grant _ k n)).step
        (State.frame_setLine _ n _)).step (State.frame_refreshAttn _)

end Sys2Proof.Machine
end

section
/-!
PROOFS. Which grant is next, what it does, and the evaluation as a chain of grants (R29 to R31, R128).
-/

namespace Sys2Proof.Machine

-- One proof after another: a default `by` argument waits for every earlier proof of the text.
set_option Elab.async false

/-! ## The next grant (R29) -/

/-- The context that is FREE for a grant is the lowest FREE one (R29). -/
theorem State.freeContext_eq_some_iff {s : State} {k : CtxNo} :
    s.freeContext = some k ↔ (s.ctx k).holder = none ∧ ∀ j, j < k → (s.ctx j).holder ≠ none := by
  refine ⟨fun h => ⟨State.holder_of_freeContext h, fun j hj => ?_⟩,
    fun ⟨hk, first⟩ => State.freeContext_of_first hk first⟩
  obtain ⟨-, i, hi, hik, before⟩ := List.find?_eq_some_iff_getElem.mp h
  have index : k.val = i := by simp [← hik]
  have held := before j.val (lt_of_lt_of_eq (Fin.lt_def.mp hj) index)
  simpa [← Option.isSome_iff_ne_none] using held

/-- The eligible line is the oldest queued one whose record-pending flag is clear (R29). -/
theorem State.eligibleLine_eq_some_iff {s : State} {n : LineNo} :
    s.eligibleLine = some n ↔ ∃ before after, s.answerQueue = before ++ n :: after
      ∧ (∀ m ∈ before, (s.line m).recordPending = true) ∧ (s.line n).recordPending = false := by
  rw [State.eligibleLine, List.find?_eq_some_iff_append]
  constructor
  · rintro ⟨clear, before, after, queue, pending⟩
    exact ⟨before, after, queue, by simpa using pending, by simpa using clear⟩
  · rintro ⟨before, after, queue, pending, clear⟩
    exact ⟨by simpa using clear, before, after, queue, by simpa using pending⟩

theorem State.nextGrant_eq_some_iff {s : State} {k : CtxNo} {n : LineNo} :
    s.nextGrant = some (k, n) ↔ s.plan.state = .planned ∧ 1 ≤ s.credit
      ∧ s.freeContext = some k ∧ s.eligibleLine = some n :=
  ⟨State.nextGrant_some, fun ⟨hp, hc, hk, hn⟩ => State.nextGrant_of_some hp hc hk hn⟩

/-! ## The evaluation as a chain (R30) -/

/-- Once no grant is allowed, more fuel makes none. -/
theorem State.grants_succ_of_stopped {fuel : Nat} {s : State}
    (h : (State.grants fuel s).nextGrant = none) :
    State.grants (fuel + 1) s = State.grants fuel s := by
  induction fuel generalizing s with
  | zero =>
    have stopped : s.nextGrant = none := h
    simp [State.grants, stopped]
  | succ m ih =>
    cases hg : s.nextGrant with
    | none => simp [State.grants, hg]
    | some kn =>
      have unfolded : ∀ f, State.grants (f + 1) s = State.grants f (s.grant kn.1 kn.2) := fun f => by
        simp [State.grants, hg]
      rw [unfolded m] at h
      rw [unfolded (m + 1), unfolded m, ih h]

/-- An evaluation makes the next grant and goes on with what is left (R30). The seven grants left to it
are enough, since the whole evaluation ends where none is allowed. -/
theorem State.evaluateGrants_of_some {s : State} {k : CtxNo} {n : LineNo}
    (h : s.nextGrant = some (k, n)) : s.evaluateGrants = (s.grant k n).evaluateGrants := by
  have first : s.evaluateGrants = State.grants 7 (s.grant k n) := by
    simp [State.evaluateGrants, State.grants, h]
  have stopped := s.nextGrant_evaluateGrants
  rw [first] at stopped
  exact first.trans (State.grants_succ_of_stopped stopped).symm

/-! ## What a grant does (R31, R128) -/

/-- A credit that falls to the low mark by the grant gives JOURNAL(CREDIT_LOW) alone (R128). -/
theorem State.givenOnly_grant {s : State} {k : CtxNo} (n : LineNo) (h : (s.ctx k).holder = none)
    (low : s.journal.lowMark + 1 = s.credit) : GivenOnly .journalCreditLow s (s.grant k n) := by
  have given := State.attention_grant n h
  rw [if_pos low] at given
  obtain ⟨queue, others⟩ := s.givenOnly_give .journalCreditLow
  exact ⟨by rw [given]; exact queue, fun j hj => by rw [given]; exact others j hj⟩

/-- Settles O14: the end and the chain of an evaluation, the next grant, and what it does. -/
theorem grantsGoToTheOldestEligibleLine : Obligations.GrantsGoToTheOldestEligibleLine := by
  refine ⟨State.nextGrant_evaluateGrants, fun s => ?_, fun s k n => ?_, fun s k n h => ?_⟩
  · cases hg : s.nextGrant with
    | none => exact State.evaluateGrants_of_none hg
    | some kn => exact State.evaluateGrants_of_some hg
  · rw [State.nextGrant_eq_some_iff, State.freeContext_eq_some_iff, State.eligibleLine_eq_some_iff,
      and_assoc]
  · obtain ⟨-, -, hfree, -⟩ := State.nextGrant_some h
    have free := State.holder_of_freeContext hfree
    have lines := s.lines_grant k n
    have contexts := s.contexts_grant k n
    exact ⟨State.ctx_of_contexts contexts, State.otherContexts_of_contexts contexts,
      s.answerQueue_grant k n, State.line_of_lines lines, State.otherLines_of_lines lines,
      State.credit_grant n free, State.givenOnly_grant n free,
      fun above => (State.attention_grant n free).trans (if_neg above), s.frame_grant k n⟩

end Sys2Proof.Machine
end

section
/-!
PROOFS. The plan start (R39, R41, R123, R154, R166).
-/

namespace Sys2Proof.Machine

-- One proof after another: a default `by` argument waits for every earlier proof of the text.
set_option Elab.async false

/-! ## When it is accepted (R166) -/

theorem LineState.allowsPlanStart_iff {x : LineState} :
    x.allowsPlanStart = true ↔ x = .off ∨ x = .passive ∨ x = .idle ∨ x = .ringing := by
  cases x <;> simp [LineState.allowsPlanStart]

theorem State.planStartAllowed_iff {s : State} : s.planStartAllowed = true ↔
    (∀ n, (s.line n).state = .off ∨ (s.line n).state = .passive ∨ (s.line n).state = .idle
        ∨ (s.line n).state = .ringing)
      ∧ s.journal.queue = [] ∧ s.bus.owner ≠ .posting := by
  simp only [State.planStartAllowed, Bool.and_eq_true, List.all_eq_true, List.mem_finRange,
    forall_const, LineState.allowsPlanStart_iff, List.isEmpty_iff, bne_iff_ne, and_assoc]

theorem State.writePlanStart_accepted {s : State} (w : Word) (h : s.planStartAllowed = true) :
    s.writePlanStart w = s.planStarted w := if_pos h

theorem State.writePlanStart_refused {s : State} (w : Word) (h : ¬ s.planStartAllowed = true) :
    s.writePlanStart w = s.give (.adminPlan .refused) := if_neg h

/-! ## What it leaves (R39, R41, R154) -/

/-- A line at an accepted plan start: from RINGING to IDLE, else as it was (R39). -/
theorem LineRecord.planStarted_eq (r : LineRecord) :
    r.planStarted = if r.state = .ringing then
        { r with state := .idle, ringGone := none, lastCarrier := false, lastRing := false }
      else r := rfl

theorem printable_iff (c : Byte) : printable c = true ↔ 0x21 ≤ c.toNat ∧ c.toNat ≤ 0x7E := by
  simp [printable, BitVec.le_def]

/-- The fill character of a plan start: the given one, or a space for a printable one (R41). -/
theorem planFill_eq (w : Word) :
    planFill w = if 0x21 ≤ (w.extractLsb' 0 7).toNat ∧ (w.extractLsb' 0 7).toNat ≤ 0x7E then 0x20#8
      else w.extractLsb' 0 8 := by
  have seven : ((w.extractLsb' 0 7).setWidth 8).toNat = (w.extractLsb' 0 7).toNat :=
    BitVec.toNat_setWidth_of_le (by decide)
  simp only [planFill, printable_iff, seven]

/-- The Attention Controller taken back polls nothing (R146, R154). -/
theorem Attention.anyPollable_reset : Attention.reset.anyPollable = false := by decide

/-- Settles O50: the accepted plan start and the refused one. -/
theorem aPlanStartBeginsAtWordTwo : Obligations.APlanStartBeginsAtWordTwo := by
  intro w s hrun allowed
  refine ⟨fun h => .of_event (fun s => s.writePlanStart w) rfl hrun ?_,
    fun h => .of_event (fun s => s.writePlanStart w) rfl hrun ?_⟩
  · rw [State.writePlanStart_accepted w (State.planStartAllowed_iff.mpr h)]
    refine ⟨fun n => ?_, rfl, planFill_eq w, rfl, rfl, Attention.anyPollable_reset, rfl, ?_⟩
    · exact (s.line_planStarted w n).trans (LineRecord.planStarted_eq _)
    · exact (s.frame_planStarted w).step (State.frame_refreshAttn _)
  · rw [State.writePlanStart_refused w (mt State.planStartAllowed_iff.mp h)]
    exact ⟨s.givenOnly_give _, (s.frame_give _).step (State.frame_refreshAttn _)⟩

end Sys2Proof.Machine
end

section
/-!
PROOFS. The request queue of the directory (R69, R70): what the start of a service makes of it.
-/

namespace Sys2Proof.Machine

-- One proof after another: a default `by` argument waits for every earlier proof of the text.
set_option Elab.async false

/-! ## A request put in service (R70) -/

/-- The request queue with `q` taken into service and `rest` waiting. -/
def State.serving (s : State) (q : Request) (rest : List Request) : State :=
  { s with directory := { s.directory with queue := rest, inService := some q } }

theorem State.frame_serving (s : State) (q : Request) (rest : List Request) :
    SameBut [.requests] s (s.serving q rest) := by
  intro b hb; cases b <;> first | exact absurd (by decide) hb | simp [Block.same, State.serving]

/-- No service starts while one is in service, or with nothing waiting. -/
theorem State.startService_idle {s : State}
    (h : s.directory.inService ≠ none ∨ s.directory.queue = []) : s.startService = s := by
  simp only [State.startService]
  split
  · rename_i hserv hqueue
    rcases h with h | h
    · exact absurd hserv h
    · rw [hqueue] at h
      cases h
  · rfl

theorem State.startService_cons {s : State} {q : Request} {rest : List Request}
    (hserv : s.directory.inService = none) (hqueue : s.directory.queue = q :: rest) :
    s.startService = (s.serving q rest).markInService q := by
  simp only [State.startService, hserv, hqueue]
  rfl

theorem State.directory_markInService (s : State) (q : Request) :
    (s.markInService q).directory = s.directory := by
  cases q with
  | commit record => rfl
  | lookup name check long k n =>
    simp only [State.markInService]
    split <;> rfl

section
variable {s : State} {k : CtxNo} {n : LineNo} (name : List Byte) (check : Word) (long : Bool)

/-- A lookup whose context still waits for it (R70). -/
theorem State.markInService_waiting (h : (s.ctx k).holder = some n ∧ (s.line n).state = .checking
      ∧ (s.ctx k).lookup = .queued) :
    s.markInService (.lookup name check long k n) =
      s.updCtx k fun c => { c with lookup := .inService } := if_pos h

theorem State.markInService_released (h : ¬ ((s.ctx k).holder = some n
      ∧ (s.line n).state = .checking ∧ (s.ctx k).lookup = .queued)) :
    s.markInService (.lookup name check long k n) = s := if_neg h

end

/-- The start of a lookup's service on every context: its own one is IN_SERVICE, if it still waits
(R70). -/
theorem State.ctx_markInService (s : State) (name : List Byte) (check : Word) (long : Bool)
    (j : CtxNo) (n : LineNo) (k : CtxNo) :
    (s.markInService (.lookup name check long j n)).ctx k =
      if j = k ∧ (s.ctx k).holder = some n ∧ (s.line n).state = .checking
          ∧ (s.ctx k).lookup = .queued then { s.ctx k with lookup := .inService } else s.ctx k := by
  by_cases waiting : (s.ctx j).holder = some n ∧ (s.line n).state = .checking
      ∧ (s.ctx j).lookup = .queued
  · rw [State.markInService_waiting _ _ _ waiting]
    by_cases hjk : j = k
    · subst hjk
      rw [State.ctx_updCtx_same, if_pos ⟨rfl, waiting⟩]
    · rw [State.ctx_updCtx_other _ _ (Ne.symm hjk), if_neg fun h => hjk h.1]
  · rw [State.markInService_released _ _ _ waiting, if_neg]
    rintro ⟨rfl, h⟩
    exact waiting h

/-- A service started in an event that has ended the one before it (R70, R73). -/
theorem State.nextServed {u : State} (h : u.directory.inService = none) :
    NextServed u u.startService.refreshAttn := by
  have frame : SameBut [.contexts, .requests] u u.startService.refreshAttn :=
    u.frame_startService.step (State.frame_refreshAttn _)
  cases hq : u.directory.queue with
  | nil =>
    rw [State.startService_idle (.inr hq)] at frame ⊢
    exact ⟨by simp [hq], by simp [h, hq], fun k => by simp [hq], frame⟩
  | cons q rest =>
    rw [State.startService_cons h hq] at frame ⊢
    have directory := (u.serving q rest).directory_markInService q
    refine ⟨?_, ?_, fun k => ?_, frame⟩
    · rw [State.directory_refreshAttn, directory, hq]
      rfl
    · rw [State.directory_refreshAttn, directory, hq]
      rfl
    · rw [State.ctx_refreshAttn, hq]
      cases q with
      | commit record => rfl
      | lookup name check long j n => exact (u.serving _ rest).ctx_markInService name check long j n k

/-! ## ATTN has no part in a service's start -/

theorem State.markInService_refreshAttn (s : State) (q : Request) :
    s.refreshAttn.markInService q = (s.markInService q).refreshAttn := by
  cases q with
  | commit record => rfl
  | lookup name check long k n =>
    by_cases waiting : (s.ctx k).holder = some n ∧ (s.line n).state = .checking
        ∧ (s.ctx k).lookup = .queued
    · rw [State.markInService_waiting _ _ _ waiting,
        State.markInService_waiting (s := s.refreshAttn) _ _ _ waiting]
      rfl
    · rw [State.markInService_released _ _ _ waiting,
        State.markInService_released (s := s.refreshAttn) _ _ _ waiting]

theorem State.startService_refreshAttn (s : State) :
    s.refreshAttn.startService = s.startService.refreshAttn := by
  by_cases idle : s.directory.inService ≠ none ∨ s.directory.queue = []
  · rw [State.startService_idle idle, State.startService_idle (s := s.refreshAttn) idle]
  · obtain ⟨hserv, hqueue⟩ := not_or.mp idle
    obtain ⟨q, rest, hq⟩ := List.exists_cons_of_ne_nil hqueue
    rw [State.startService_cons (not_not.mp hserv) hq,
      State.startService_cons (s := s.refreshAttn) (not_not.mp hserv) hq]
    exact (s.serving q rest).markInService_refreshAttn q

/-- `State.nextServed` from the state that another event's statement leaves, ATTN in line. -/
theorem State.nextServed_refreshAttn {u : State} (h : u.directory.inService = none) :
    NextServed u.refreshAttn u.startService.refreshAttn := by
  have served := State.nextServed (u := u.refreshAttn) h
  rw [State.startService_refreshAttn] at served
  exact served

/-- Settles O33: nothing to start, and the head of the queue started. -/
theorem requestsAreServedInOrder : Obligations.RequestsAreServedInOrder := by
  intro s hrun
  refine ⟨fun idle => .unchanged (f := State.startService) rfl hrun (State.startService_idle idle),
    fun q rest hserv hqueue => .of_event State.startService rfl hrun ?_⟩
  obtain ⟨queue, service, contexts, frame⟩ := State.nextServed hserv
  rw [hqueue] at queue service contexts
  refine ⟨queue, service, ?_, ?_⟩
  · rintro record rfl
    rw [State.startService_cons hserv hqueue]
    exact (s.frame_serving _ rest).step (State.frame_refreshAttn _)
  · rintro name check long k n rfl
    refine ⟨?_, fun j hj => ?_, frame⟩
    · simpa using contexts k
    · simpa [Ne.symm hj] using contexts j

end Sys2Proof.Machine
end

section
/-!
PROOFS. Characters typed in a dialogue: the editing table of NAME and PASSWORD (R43, R44, R47), and the
password kept from memory (R46).
-/

namespace Sys2Proof.Machine

-- One proof after another: a default `by` argument waits for every earlier proof of the text.
set_option Elab.async false

/-! ## What a completion says of the state it answers -/

/-- A command answers one state, so that what it completes with holds of that state. -/
theorem Completes.post {i : Instr} {s t : State} {p : State → Prop} (h : Completes i s p)
    (ht : exec i s = .next t) : p t := by
  obtain ⟨u, hu, hp⟩ := h
  cases hu.symm.trans ht
  exact hp

/-! ## The word that an entry writes (R9, R46) -/

section
variable {bs : List Block} {s t : State} {o : Offset} {v : Word}

/-- What follows the write of a word and leaves memory alone leaves that word there, and the others. -/
theorem SameBut.word_written (h : SameBut bs (s.writeArea o v) t) (hm : MemoryCanonical s)
    (hb : .mem ∉ bs := by decide) : t.readMem (s.areaAddr o) = v :=
  (h.readMem hb _).trans (s.readMem_writeArea_same o v hm)

theorem SameBut.otherWords_written (h : SameBut bs (s.writeArea o v) t)
    (hb : .mem ∉ bs := by decide) : OtherWords (s.areaAddr o) s t :=
  fun a ha => (h.readMem hb a).trans (s.otherWords_writeArea o v a ha)

theorem SameBut.after_write (h : SameBut bs (s.writeArea o v) t) : SameBut (.mem :: bs) s t :=
  ((s.frame_writeArea o v).mono (by simp)).step h fun _ => List.mem_cons_of_mem _

end

/-- After the word is written, an entry's event leaves memory alone (R9). -/
theorem State.frame_entryWritten (s : State) (n : LineNo) (i : Fin 32) (w : Word) :
    SameBut [.lines, .answerQueue, .contexts, .queues, .requests, .sessions]
      (s.writeArea (receiveOffset n i) (s.entryInMemory n w)) (s.receive n i w) := by
  have marked := ((s.writeArea (receiveOffset n i) (s.entryInMemory n w)).frame_setLine n
    ((s.line n).marked w)).mono
      (bs := [.lines, .answerQueue, .contexts, .queues, .requests, .sessions]) (by decide)
  simp only [State.receive, State.addMarks_eq]
  split
  case h_1 => exact SameBut.refl _ _
  case h_6 => exact (marked.step (State.frame_updLine _ n _)).step (State.frame_updSession _ n _)
  case h_7 | h_8 | h_9 | h_10 =>
    split
    · exact marked.step (State.frame_dialogueEntry _ _ n w)
    · exact marked
  all_goals exact marked

/-! ## Unmarked entries of a dialogue (R43) -/

theorem LineRecord.marked_of_unmarked (r : LineRecord) {w : Word} (h : entryMarks w = 0#3) :
    r.marked w = r := by
  simp [LineRecord.marked, h]

theorem entryIsBreak_of_unmarked {w : Word} (h : entryMarks w = 0#3) : entryIsBreak w = false :=
  Bool.eq_false_iff.mpr fun e => entryMarks_of_framing (entryIsBreak_iff.mp e).1 h

/-- An unmarked entry in NAME or PASSWORD: the word in memory, then its character (R9, R43). -/
theorem State.receive_unmarked {s : State} {n : LineNo} {k : CtxNo} (i : Fin 32) {w : Word}
    (hst : (s.line n).state = .name ∨ (s.line n).state = .password)
    (hk : (s.line n).context = some k) (h : entryMarks w = 0#3) :
    s.receive n i w =
      State.dialogueEntry (s.writeArea (receiveOffset n i) (s.entryInMemory n w)) k n w := by
  rw [State.receive_dialogue i w hst hk, LineRecord.marked_of_unmarked _ h]
  exact congrArg (State.dialogueEntry · k n w) (State.setLine_line (s.writeArea _ _) n)

theorem State.dialogueEntry_name {s : State} {n : LineNo} (k : CtxNo) {w : Word}
    (hst : (s.line n).state = .name) (h : entryMarks w = 0#3) (hcr : entryChar7 w ≠ 0x0D#8) :
    s.dialogueEntry k n w = s.updCtx k fun c => c.editName (entryChar7 w) := by
  simp [State.dialogueEntry, hst, h, hcr, entryIsBreak_of_unmarked h]

theorem State.dialogueEntry_password {s : State} {n : LineNo} (k : CtxNo) {w : Word}
    (hst : (s.line n).state = .password) (h : entryMarks w = 0#3) (hcr : entryChar7 w ≠ 0x0D#8) :
    s.dialogueEntry k n w = s.updCtx k fun c => c.editPassword (entryChar7 w) := by
  simp [State.dialogueEntry, hst, h, hcr, entryIsBreak_of_unmarked h]

/-! ## The editing table (R44, R47) -/

section
variable {b : List Byte} {c : Byte} (long : Bool) (stored : Byte)

theorem editBuffer_room (hc : 0x21 ≤ c.toNat ∧ c.toNat ≤ 0x7E) (hb : b.length < 12) :
    editBuffer b long c stored = (b ++ [stored], long) := by
  simp [editBuffer, (printable_iff c).mpr hc, typeChar, hb]

theorem editBuffer_full (hc : 0x21 ≤ c.toNat ∧ c.toNat ≤ 0x7E) (hb : 12 ≤ b.length) :
    editBuffer b long c stored = (b, true) := by
  simp [editBuffer, (printable_iff c).mpr hc, typeChar, Nat.not_lt.mpr hb]

theorem editBuffer_rubout (hc : c = 0x08#8 ∨ c = 0x7F#8) :
    editBuffer b long c stored = (b.dropLast, long) := by
  rcases hc with rfl | rfl <;> simp [editBuffer, printable]

theorem editBuffer_kill (hc : c = 0x15#8) : editBuffer b long c stored = ([], false) := by
  subst hc
  simp [editBuffer, printable]

theorem editBuffer_ignored (hc : c.toNat ≤ 0x20) (h8 : c ≠ 0x08#8) (h15 : c ≠ 0x15#8) :
    editBuffer b long c stored = (b, long) := by
  have unprintable : printable c = false :=
    Bool.eq_false_iff.mpr fun h => absurd ((printable_iff c).mp h).1 (by omega)
  have h7F : c ≠ 0x7F#8 := by
    rintro rfl
    exact absurd hc (by decide)
  simp [editBuffer, unprintable, h8, h15, h7F]

end

theorem foldCase_eq (c : Byte) :
    foldCase c = if 0x61 ≤ c.toNat ∧ c.toNat ≤ 0x7A then c - 0x20#8 else c := by
  simp [foldCase, BitVec.le_def]

/-- The editing table (R44, R47): what holds of an edited buffer and its overlong flag holds of what each
character but CR makes of them. -/
theorem editBuffer_table {b : List Byte} {long : Bool} {c stored : Byte} {P : List Byte → Bool → Prop}
    (h : c ≠ 0x0D#8 → P (editBuffer b long c stored).1 (editBuffer b long c stored).2) :
    (0x21 ≤ c.toNat ∧ c.toNat ≤ 0x7E → b.length < 12 → P (b ++ [stored]) long)
      ∧ (0x21 ≤ c.toNat ∧ c.toNat ≤ 0x7E → 12 ≤ b.length → P b true)
      ∧ (c = 0x08#8 ∨ c = 0x7F#8 → P b.dropLast long)
      ∧ (c = 0x15#8 → P [] false)
      ∧ (c.toNat ≤ 0x20 → c ≠ 0x08#8 → c ≠ 0x15#8 → c ≠ 0x0D#8 → P b long) := by
  have typed_ne_cr : 0x21 ≤ c.toNat ∧ c.toNat ≤ 0x7E → c ≠ 0x0D#8 := by
    rintro ⟨above, -⟩ rfl
    exact absurd above (by decide)
  refine ⟨fun hc room => ?_, fun hc full => ?_, fun hc => ?_, fun hc => ?_, fun hc h8 h15 hcr => ?_⟩
  · simpa only [editBuffer_room _ _ hc room] using h (typed_ne_cr hc)
  · simpa only [editBuffer_full _ _ hc full] using h (typed_ne_cr hc)
  · simpa only [editBuffer_rubout _ _ hc] using h (by rcases hc with rfl | rfl <;> decide)
  · simpa only [editBuffer_kill _ _ hc] using h (by rw [hc]; decide)
  · simpa only [editBuffer_ignored _ _ hc h8 h15] using h hcr

/-- An entry that leaves its word and an edited context. -/
theorem Completes.contextEdited {n : LineNo} {i : Fin 32} {w v : Word} {k : CtxNo} {s : State}
    {y : Context} {f : Context → Context} (hrun : Running s)
    (h : s.receive n i w = (s.writeArea (receiveOffset n i) v).updCtx k f) (hy : f (s.ctx k) = y) :
    Completes (.receiveEntry n i w) s fun t => t.ctx k = y ∧ OtherContexts k s t
      ∧ OtherWords (s.areaAddr (receiveOffset n i)) s t ∧ SameBut [.mem, .contexts] s t := by
  refine .of_event (fun s => s.receive n i w) rfl hrun ?_
  rw [h]
  have frame : SameBut [.contexts] (s.writeArea (receiveOffset n i) v)
      (((s.writeArea (receiveOffset n i) v).updCtx k f).refreshAttn) :=
    (State.frame_updCtx _ k f).step (State.frame_refreshAttn _)
  refine ⟨?_, State.otherContexts_updCtx (s.writeArea (receiveOffset n i) v) k f,
    frame.otherWords_written, frame.after_write⟩
  simpa using hy

/-- Settles O30: the editing table on the name, letters in upper case, and on the password. -/
theorem typingEditsTheBuffers : Obligations.TypingEditsTheBuffers := by
  intro n i w k s hrun hk hmarks c x typed becomes
  refine ⟨fun hst => ?_, fun hst => ?_⟩
  · refine editBuffer_table (P := fun b long => becomes { x with name := b, nameLong := long })
      fun hcr => ?_
    rw [← foldCase_eq]
    exact .contextEdited hrun ((State.receive_unmarked i (.inl hst) hk hmarks).trans
      (State.dialogueEntry_name k hst hmarks hcr)) rfl
  · exact editBuffer_table
      (P := fun b long => becomes { x with password := b, passwordLong := long }) fun hcr =>
        .contextEdited hrun ((State.receive_unmarked i (.inr hst) hk hmarks).trans
          (State.dialogueEntry_password k hst hmarks hcr)) rfl

/-! ## The password kept from memory (R46) -/

/-- R46's test on the character and the marks as written. -/
theorem mustMask_iff (w : Word) : mustMask w = true ↔
    (0x21 ≤ (w.extractLsb' 0 7).toNat ∧ (w.extractLsb' 0 7).toNat ≤ 0x7E)
      ∨ w.extractLsb' 8 3 ≠ 0#3 := by
  have seven : (entryChar7 w).toNat = (w.extractLsb' 0 7).toNat :=
    BitVec.toNat_setWidth_of_le (by decide)
  simp [mustMask, printable_iff, seven, entryMarks]

theorem State.entryInMemory_masked {s : State} {n : LineNo} {w : Word}
    (hst : (s.line n).state = .password) (h : mustMask w = true) :
    s.entryInMemory n w = w.extractLsb' 8 8 ++ s.fill := if_pos ⟨hst, h⟩

theorem State.entryInMemory_written {s : State} {n : LineNo} {w : Word}
    (h : (s.line n).state = .password → mustMask w = false) : s.entryInMemory n w = w :=
  if_neg fun ⟨hst, hmask⟩ => by simp [h hst] at hmask

/-- A typed character is not the fill character, which is not printable (R41). -/
theorem ne_fill_of_typed {s : State} {c : BitVec 7} (hf : FillUnprintable s)
    (h : 0x21 ≤ c.toNat ∧ c.toNat ≤ 0x7E) : s.fill.extractLsb' 0 7 ≠ c := by
  rintro rfl
  have printed : printable ((s.fill.extractLsb' 0 7).setWidth 8) = true := by
    rw [printable_iff, BitVec.toNat_setWidth_of_le (by decide)]
    exact h
  rw [hf] at printed
  cases printed

/-- Settles O29: the word in memory is R46's, and its meaning is the entry's own (O30, O32). -/
theorem aPasswordNeverReachesMemory : Obligations.APasswordNeverReachesMemory := by
  intro n i w s hrun hm hf a typed
  refine .of_event (fun s => s.receive n i w) rfl hrun ?_
  have answered : exec (.receiveEntry n i w) s = .next (s.receive n i w).refreshAttn :=
    event_running (fun s => s.receive n i w) hrun
  have frame := (s.frame_entryWritten n i w).step (State.frame_refreshAttn _)
  have word : (s.receive n i w).refreshAttn.readMem a = s.entryInMemory n w :=
    frame.word_written hm
  have masked : (s.line n).state = .password → typed ∨ w.extractLsb' 8 3 ≠ 0#3 →
      (s.receive n i w).refreshAttn.readMem a = w.extractLsb' 8 8 ++ s.fill := fun hst h =>
    word.trans (State.entryInMemory_masked hst ((mustMask_iff w).mpr h))
  refine ⟨frame.otherWords_written, masked, fun hst h => ?_, fun h => ?_, fun k hst hk =>
    ⟨fun h hmarks room => ?_, fun hmarks hb few => ?_, fun hframing hchar => ?_⟩⟩
  · rw [masked hst (.inl h), BitVec.extractLsb'_append_eq_of_add_le (by decide)]
    exact ne_fill_of_typed hf h
  · refine word.trans (State.entryInMemory_written fun hst => Bool.eq_false_iff.mpr fun e => ?_)
    obtain ⟨untyped, unmarked⟩ := h.resolve_left (not_not.mpr hst)
    exact ((mustMask_iff w).mp e).elim untyped fun marked => marked unmarked
  · have seven : ((w.extractLsb' 0 7).setWidth 8).toNat = (w.extractLsb' 0 7).toNat :=
      BitVec.toNat_setWidth_of_le (by decide)
    obtain ⟨-, editing⟩ := typingEditsTheBuffers n i w k s hrun hk hmarks
    obtain ⟨stores, -⟩ := editing hst
    obtain ⟨buffer, -⟩ := (stores (by rw [seven]; exact h) room).post answered
    rw [buffer]
  · obtain ⟨-, noisy⟩ := aBreakRestartsAndNoiseCounts n i w k s hrun hm hk (.inr hst)
    obtain ⟨counts, -⟩ := noisy hmarks hb
    obtain ⟨-, -, context, -⟩ := (counts few).post answered
    rw [context]
  · obtain ⟨restarts, -⟩ := aBreakRestartsAndNoiseCounts n i w k s hrun hm hk (.inr hst)
    obtain ⟨line, -⟩ := (restarts hframing hchar).post answered
    rw [line]

end Sys2Proof.Machine
end

section
/-!
PROOFS. The end of a name or a password (R45, R48, R56, R57), and the lookup it submits (R69, R70).
-/

namespace Sys2Proof.Machine

-- One proof after another: a default `by` argument waits for every earlier proof of the text.
set_option Elab.async false

/-! ## A request submitted (R69, R70) -/

theorem State.submit_waits {s : State} (q : Request) (h : s.directory.inService ≠ none) :
    s.submit q = { s with directory := { s.directory with queue := s.directory.queue ++ [q] } } :=
  State.startService_idle (.inl h)

theorem State.submit_served {s : State} (q : Request) (h : s.directory.inService = none)
    (hq : s.directory.queue = []) : s.submit q = (s.serving q []).markInService q :=
  State.startService_cons (s := { s with directory := { s.directory with
    queue := s.directory.queue ++ [q] } }) h (congrArg (· ++ [q]) hq)

/-- A lookup submitted to an idle directory is in service at once, and so is its context (R52, R70). -/
theorem State.submit_lookup_served {s : State} (name : List Byte) (check : Word) (long : Bool)
    {k : CtxNo} {n : LineNo} (h : s.directory.inService = none) (hq : s.directory.queue = [])
    (held : (s.ctx k).holder = some n) (hst : (s.line n).state = .checking)
    (queued : (s.ctx k).lookup = .queued) :
    (s.submit (.lookup name check long k n)).ctx k = { s.ctx k with lookup := .inService }
      ∧ OtherContexts k s (s.submit (.lookup name check long k n))
      ∧ (s.submit (.lookup name check long k n)).directory.queue = []
      ∧ (s.submit (.lookup name check long k n)).directory.inService =
          some (.lookup name check long k n) := by
  rw [State.submit_served _ h hq]
  have started := State.markInService_waiting (s := s.serving (.lookup name check long k n) []) name
    check long ⟨held, hst, queued⟩
  have directory := (s.serving (.lookup name check long k n) []).directory_markInService
    (.lookup name check long k n)
  refine ⟨?_, fun j hj => ?_, ?_, ?_⟩
  · rw [started]
    exact State.ctx_updCtx_same _ k _
  · rw [started]
    exact State.ctx_updCtx_other _ _ hj
  · rw [directory]
    rfl
  · rw [directory]
    rfl

/-! ## A rejected attempt (R56, R57) -/

theorem LineRecord.with_state {r : LineRecord} {x : LineState} (h : r.state = x) :
    { r with state := x } = r := by
  subst h
  rfl

section
variable {s : State} {k : CtxNo} (n : LineNo)

theorem State.rejectAttempt_again (reason : RejectReason) (h : (s.ctx k).attempts < 2) :
    s.rejectAttempt k n reason = ((s.setLine n { s.line n with state := .name }).updCtx k
      Context.rejected).give (.rejected n reason) := if_pos h

theorem State.rejectAttempt_last (reason : RejectReason) (h : 2 ≤ (s.ctx k).attempts) :
    s.rejectAttempt k n reason = s.clearDialogue n .attempts (some .rude) := if_neg (by omega)

/-! ## A CR, by what the buffer holds (R45, R48) -/

theorem State.endName_empty (h : (s.ctx k).name = []) : s.endName k n = s := by
  simp [State.endName, h]

theorem State.endName_long (h : (s.ctx k).name ≠ []) (hl : (s.ctx k).nameLong = true) :
    s.endName k n = s.rejectAttempt k n .nameTooLong := by
  simp [State.endName, h, hl]

/-- A line that is rejected in NAME stays there (R56). -/
theorem State.endName_again (hst : (s.line n).state = .name) (h : (s.ctx k).name ≠ [])
    (hl : (s.ctx k).nameLong = true) (few : (s.ctx k).attempts < 2) :
    s.endName k n = (s.updCtx k Context.rejected).give (.rejected n .nameTooLong) := by
  rw [State.endName_long n h hl, State.rejectAttempt_again n _ few, LineRecord.with_state hst,
    State.setLine_line]

/-- A context whose password is to be typed (R45). -/
def Context.passwordEmptied (c : Context) : Context := { c with password := [], passwordLong := false }

theorem State.endName_done (h : (s.ctx k).name ≠ []) (hl : (s.ctx k).nameLong = false) :
    s.endName k n = ((s.setLine n { s.line n with state := .password }).updCtx k
      Context.passwordEmptied).give (.promptPassword n) := by
  simp only [State.endName, List.isEmpty_iff, h, hl]
  rfl

theorem State.endPassword_empty (h : (s.ctx k).password = []) : s.endPassword k n = s := by
  simp [State.endPassword, h]

/-- Line n in CHECKING, its password forgotten, with its lookup about to be submitted (R48). -/
def State.passwordEnded (s : State) (k : CtxNo) (n : LineNo) : State :=
  (s.setLine n { s.line n with state := .checking }).updCtx k Context.submitted

theorem State.endPassword_submits (h : (s.ctx k).password ≠ []) :
    s.endPassword k n = (s.passwordEnded k n).submit (.lookup (s.ctx k).name
      (checkWord (s.ctx k).password) (s.ctx k).passwordLong k n) := by
  simp only [State.endPassword, List.isEmpty_iff, h]
  rfl

end

theorem State.frame_passwordEnded (s : State) (k : CtxNo) (n : LineNo) :
    SameBut [.lines, .contexts] s (s.passwordEnded k n) :=
  ((s.frame_setLine n _).mono (by decide)).step (State.frame_updCtx _ k _)

/-! ## The entry of a CR (R43, R46) -/

section
variable {s : State} {n : LineNo} {k : CtxNo} (i : Fin 32) {w : Word}

theorem entryChar7_of_cr (h : w.extractLsb' 0 7 = 0x0D#7) : entryChar7 w = 0x0D#8 := by
  rw [entryChar7, h]
  rfl

/-- A CR is not kept from memory: it is no printable character (R46). -/
theorem mustMask_of_cr (h : w.extractLsb' 8 3 = 0#3) (hcr : w.extractLsb' 0 7 = 0x0D#7) :
    mustMask w = false :=
  Bool.eq_false_iff.mpr fun e => by simp [mustMask_iff, h, hcr] at e

theorem State.receive_cr_name (hst : (s.line n).state = .name) (hk : (s.line n).context = some k)
    (h : w.extractLsb' 8 3 = 0#3) (hcr : w.extractLsb' 0 7 = 0x0D#7) :
    s.receive n i w = (s.writeArea (receiveOffset n i) w).endName k n := by
  rw [State.receive_unmarked i (.inl hst) hk h,
    State.entryInMemory_written fun _ => mustMask_of_cr h hcr]
  simp [State.dialogueEntry, hst, entryIsBreak_of_unmarked h, entryMarks, h, entryChar7_of_cr hcr]

theorem State.receive_cr_password (hst : (s.line n).state = .password)
    (hk : (s.line n).context = some k) (h : w.extractLsb' 8 3 = 0#3)
    (hcr : w.extractLsb' 0 7 = 0x0D#7) :
    s.receive n i w = (s.writeArea (receiveOffset n i) w).endPassword k n := by
  rw [State.receive_unmarked i (.inr hst) hk h,
    State.entryInMemory_written fun _ => mustMask_of_cr h hcr]
  simp [State.dialogueEntry, hst, entryIsBreak_of_unmarked h, entryMarks, h, entryChar7_of_cr hcr]

end

/-- Settles O31: by the phase, and in each by what the buffer holds. -/
theorem aCrEndsTheNameOrThePassword : Obligations.ACrEndsTheNameOrThePassword := by
  intro n i w k s hrun hm hk hmarks hcr o passes x q
  have passed : ∀ {bs t}, SameBut bs (s.writeArea o w) t → .mem ∉ bs → passes t :=
    fun frame hb => ⟨frame.word_written hm hb, frame.otherWords_written hb⟩
  have nothing := (s.writeArea o w).frame_refreshAttn
  have contexts : ∀ r f, OtherContexts k s (State.updCtx ((s.writeArea o w).setLine n r) k f) :=
    fun r f => State.otherContexts_updCtx ((s.writeArea o w).setLine n r) k f
  have lines : ∀ r, OtherLines n s ((s.writeArea o w).setLine n r) := fun r =>
    State.otherLines_setLine (s.writeArea o w) n r
  have completes : ∀ {u : State} {post : State → Prop}, s.receive n i w = u → post u.refreshAttn →
      Completes (.receiveEntry n i w) s post := fun e hp =>
    .of_event (fun s => s.receive n i w) rfl hrun (by rw [e]; exact hp)
  refine ⟨fun hst => ?_, fun hst => ?_⟩
  · have ends : s.receive n i w = (s.writeArea o w).endName k n :=
      State.receive_cr_name i hst hk hmarks hcr
    refine ⟨fun empty => ?_, fun name long few => ?_, fun name long many hq => ?_,
      fun name short => ?_⟩
    · exact completes (ends.trans (State.endName_empty n empty))
        ⟨passed nothing (by decide), nothing.after_write⟩
    · have frame := (((s.writeArea o w).frame_updCtx k Context.rejected).mono
        (bs := [.contexts, .queues]) (by decide)).step
          ((State.frame_give _ (.rejected n .nameTooLong)).step (State.frame_refreshAttn _))
      exact completes (ends.trans (State.endName_again (s := s.writeArea o w) n hst name long few))
        ⟨State.ctx_updCtx_same (s.writeArea o w) k Context.rejected,
        State.otherContexts_updCtx (s.writeArea o w) k _, s.givenOnly_give (.rejected n .nameTooLong),
        passed frame (by decide), frame.after_write⟩
    · have clears : s.receive n i w = (s.writeArea o w).clearDialogue n .attempts (some .rude) := by
        rw [ends, State.endName_long (s := s.writeArea o w) n name long]
        exact State.rejectAttempt_last (s := s.writeArea o w) n _ many
      exact (Completes.dialogueCleared (f := fun s => s.receive n i w) rfl hrun clears hk hq).imp
        fun t cleared => ⟨passed cleared.frame (by decide), cleared⟩
    · have frame := ((((s.writeArea o w).frame_setLine n { s.line n with state := .password }).mono
        (bs := [.lines, .contexts, .queues]) (by decide)).step (State.frame_updCtx _ k
          Context.passwordEmptied)).step
            ((State.frame_give _ (.promptPassword n)).step (State.frame_refreshAttn _))
      exact completes (ends.trans (State.endName_done n name short))
        ⟨State.line_setLine_same (s.writeArea o w) n _, lines _,
          by simp [x, Context.passwordEmptied],
          contexts { s.line n with state := .password } Context.passwordEmptied,
          s.givenOnly_give (.promptPassword n), passed frame (by decide), frame.after_write⟩
  · have ends : s.receive n i w = (s.writeArea o w).endPassword k n :=
      State.receive_cr_password i hst hk hmarks hcr
    have submission := (State.frame_submit ((s.writeArea o w).passwordEnded k n) q).step
      (State.frame_refreshAttn _)
    have frame := (((s.writeArea o w).frame_passwordEnded k n).mono
      (bs := [.lines, .contexts, .requests]) (by decide)).step submission
    have checking : ((s.writeArea o w).passwordEnded k n).line n =
        { s.line n with state := .checking } := State.line_setLine_same (s.writeArea o w) n _
    have waiting : ((s.writeArea o w).passwordEnded k n).ctx k =
        { x with password := [], passwordLong := false, lookup := .queued } :=
      State.ctx_updCtx_same _ k _
    refine ⟨fun empty => ?_, fun typed busy => ?_, fun typed idle empty held => ?_⟩
    · exact completes (ends.trans (State.endPassword_empty n empty))
        ⟨passed nothing (by decide), nothing.after_write⟩
    · refine completes (ends.trans (State.endPassword_submits n typed))
        ⟨(submission.line (by decide) n).trans checking,
          fun m hm => (submission.line (by decide) m).trans (lines _ m hm), ?_⟩
      have waits := State.submit_waits (s := (s.writeArea o w).passwordEnded k n) q busy
      exact ⟨(congrArg (State.ctx · k) waits).trans waiting,
        fun j hj => (congrArg (State.ctx · j) waits).trans (contexts _ _ j hj),
        congrArg (·.directory.queue) waits, congrArg (·.directory.inService) waits,
        passed frame (by decide), frame.after_write⟩
    · refine completes (ends.trans (State.endPassword_submits n typed))
        ⟨(submission.line (by decide) n).trans checking,
          fun m hm => (submission.line (by decide) m).trans (lines _ m hm), ?_⟩
      obtain ⟨own, others, queue, service⟩ := State.submit_lookup_served
        (s := (s.writeArea o w).passwordEnded k n) x.name (checkWord x.password) x.passwordLong idle
          empty (by rw [waiting]; exact held) (by rw [checking]) (by rw [waiting])
      exact ⟨own.trans (by rw [waiting]), fun j hj => (others j hj).trans (contexts _ _ j hj),
        queue, service, passed frame (by decide), frame.after_write⟩

end Sys2Proof.Machine
end

section
/-!
PROOFS. Completed lookups: rejections, acceptances, and the completions of released contexts (R54 to R58,
R72 to R74, R109).
-/

namespace Sys2Proof.Machine

-- One proof after another: a default `by` argument waits for every earlier proof of the text.
set_option Elab.async false

/-! ## The directory's part of a completion (R73 step 1, R74) -/

/-- The directory with no request in service. -/
def State.serviceFreed (s : State) : State :=
  { s with directory := { s.directory with inService := none } }

/-- A completed lookup's outcome with the directory's own effect taken (R73 step 1). -/
def State.outcomeOwned (s : State) (o : LookupOutcome) (oi : Option SlotNo) : State :=
  s.serviceFreed.lookupOwnEffect o oi

theorem State.frame_outcomeOwned (s : State) (o : LookupOutcome) (oi : Option SlotNo) :
    SameBut [.slots, .requests] s (s.outcomeOwned o oi) :=
  ((s.frame_inService none).mono (by decide)).step (State.frame_lookupOwnEffect _ o oi)

/-- The request queue is as it was and nothing is in service. -/
theorem State.requests_outcomeOwned (s : State) (o : LookupOutcome) (oi : Option SlotNo) :
    (s.outcomeOwned o oi).directory.queue = s.directory.queue
      ∧ (s.outcomeOwned o oi).directory.inService = none :=
  State.frame_lookupOwnEffect s.serviceFreed o oi .requests (by decide)

theorem State.lookupCompleted_eq {s : State} {name : List Byte} {check : Word} {long : Bool}
    {k : CtxNo} {n : LineNo} {o : LookupOutcome} {oi : Option SlotNo}
    (h : s.directory.inService = some (.lookup name check long k n))
    (ho : s.lookupOutcome name check long = (o, oi)) :
    s.lookupCompleted = ((s.outcomeOwned o oi).applyOutcome k n o oi).startService := by
  have same : State.lookupOutcome { s with directory := { s.directory with inService := none } } name
      check long = (o, oi) := ho
  simp only [State.lookupCompleted, h, same]
  rfl

/-- No other rejection has an effect of the directory's own. -/
theorem State.lookupOwnEffect_other (s : State) {reason : RejectReason} (oi : Option SlotNo)
    (h : reason ≠ .badPassword) : s.lookupOwnEffect (.reject reason) oi = s := by
  simp only [State.lookupOwnEffect]
  split
  · rename_i hr
    cases hr
    exact absurd rfl h
  · rfl

/-- A slot is changed by BAD_PASSWORD only, which counts a failure and locks at the threshold (R74). -/
def FailureOwned (reason : RejectReason) (oi : Option SlotNo) (s t : State) : Prop :=
  (∀ i a, reason = .badPassword → oi = some i → s.slot i = some a →
    t.slot i = some { a with
        failures := min (a.failures + 1) 15
        lock := if s.plan.lockThreshold ≤ min (a.failures + 1) 15 ∧ a.lock = .none then
            .timed s.plan.lockTime else a.lock }
    ∧ OtherSlots i s t)
  ∧ (reason ≠ .badPassword → t.directory.slots = s.directory.slots)

theorem State.failureOwned {s t : State} (reason : RejectReason) (oi : Option SlotNo)
    (h : t.directory.slots = (s.outcomeOwned (.reject reason) oi).directory.slots) :
    FailureOwned reason oi s t := by
  have slot : ∀ j, t.slot j = (s.outcomeOwned (.reject reason) oi).slot j := fun j => by
    simp only [State.slot, h]
  refine ⟨?_, fun other => ?_⟩
  · rintro i a rfl rfl ha
    refine ⟨?_, fun j hj => (slot j).trans (State.slot_updSlot_other s.serviceFreed _ hj)⟩
    refine (slot i).trans ((State.slot_updSlot_same s.serviceFreed i _).trans ?_)
    change (s.slot i).map _ = _
    rw [ha]
    rfl
  · rw [h, State.outcomeOwned, State.lookupOwnEffect_other _ oi other]
    rfl

/-! ## The Sign-On Engine's part (R54, R58) -/

theorem State.completionApplies_iff {s : State} {k : CtxNo} {n : LineNo} :
    s.completionApplies k n = true ↔ (s.ctx k).holder = some n ∧ (s.line n).state = .checking
      ∧ (s.ctx k).lookup = .inService := by
  simp only [State.completionApplies, Bool.and_eq_true, beq_iff_eq, and_assoc]

/-- The directory's own effect leaves what R54 asks. -/
theorem State.completionApplies_outcomeOwned (s : State) (k : CtxNo) (n : LineNo)
    (o : LookupOutcome) (oi : Option SlotNo) :
    (s.outcomeOwned o oi).completionApplies k n = s.completionApplies k n := by
  have frame := s.frame_outcomeOwned o oi
  simp only [State.completionApplies, frame.ctx, frame.line]

/-- A completion up to what its outcome makes of the call: the lookup of context k is NONE (R52). -/
def State.lookupEnded (s : State) (k : CtxNo) (o : LookupOutcome) (oi : Option SlotNo) : State :=
  (s.outcomeOwned o oi).endLookup k

section
variable (s : State) (k : CtxNo) (o : LookupOutcome) (oi : Option SlotNo)

theorem State.frame_lookupEnded :
    SameBut [.slots, .contexts, .requests] s (s.lookupEnded k o oi) :=
  ((s.frame_outcomeOwned o oi).mono (by decide)).step (State.frame_endLookup _ k)

theorem State.ctx_lookupEnded : (s.lookupEnded k o oi).ctx k = { s.ctx k with lookup := .none } :=
  (State.ctx_updCtx_same _ k _).trans (by rw [(s.frame_outcomeOwned o oi).ctx])

theorem State.otherContexts_lookupEnded : OtherContexts k s (s.lookupEnded k o oi) := fun j hj =>
  (State.ctx_updCtx_other _ _ hj).trans ((s.frame_outcomeOwned o oi).ctx (by decide) j)

theorem State.requests_lookupEnded : (s.lookupEnded k o oi).directory.queue = s.directory.queue
    ∧ (s.lookupEnded k o oi).directory.inService = none := s.requests_outcomeOwned o oi

end

section
variable {s : State} {k : CtxNo} {n : LineNo} {o : LookupOutcome} {oi : Option SlotNo}

theorem State.applyOutcome_released (h : ¬ s.completionApplies k n = true) :
    (s.outcomeOwned o oi).applyOutcome k n o oi = s.outcomeOwned o oi :=
  if_neg (by rw [State.completionApplies_outcomeOwned]; exact h)

theorem State.applyOutcome_reject {reason : RejectReason} (h : s.completionApplies k n = true) :
    (s.outcomeOwned (.reject reason) oi).applyOutcome k n (.reject reason) oi =
      (s.lookupEnded k (.reject reason) oi).rejectAttempt k n reason :=
  if_pos (by rw [State.completionApplies_outcomeOwned]; exact h)

theorem State.applyOutcome_accept {i : SlotNo} (h : s.completionApplies k n = true) :
    (s.outcomeOwned .accept (some i)).applyOutcome k n .accept (some i) =
      (s.lookupEnded k .accept (some i)).acceptCall k n i :=
  if_pos (by rw [State.completionApplies_outcomeOwned]; exact h)

end

theorem DialogueCleared.inService {s t : State} {n : LineNo} {k : CtxNo} {reason : RejectReason}
    {hang : Option Manner} (h : DialogueCleared n k reason hang s t) :
    t.directory.inService = s.directory.inService := by
  obtain ⟨-, -, -, -, -, -, service, -⟩ := h
  exact service

/-- A completion followed by the start of the next service (R73 step 4). -/
theorem Completes.lookupCompleted {s : State} {name : List Byte} {check : Word} {long : Bool}
    {k : CtxNo} {n : LineNo} {o : LookupOutcome} {oi : Option SlotNo} {post : State → Prop}
    (hrun : Running s) (h : s.directory.inService = some (.lookup name check long k n))
    (ho : s.lookupOutcome name check long = (o, oi))
    (hp : post ((s.outcomeOwned o oi).applyOutcome k n o oi).startService.refreshAttn) :
    Completes .lookupCompletion s post :=
  .of_event State.lookupCompleted rfl hrun (by rw [State.lookupCompleted_eq h ho]; exact hp)

theorem GivenOnly.of_queues {e : Notice} {s t u : State} (h : GivenOnly e t u)
    (same : ∀ j, t.attention.queue j = s.attention.queue j) : GivenOnly e s u :=
  ⟨by rw [h.1, same], fun j hj => (h.2 j hj).trans (same j)⟩

/-- Settles O36: a rejection by the attempts before it, and a context that no longer waits. -/
theorem aRejectedLookupCountsAnAttempt : Obligations.ARejectedLookupCountsAnAttempt := by
  intro name check long k n s hrun hserv applies owned ended
  refine ⟨fun reason oi ho => ⟨fun h few => ?_, fun h many hq hk => ?_, fun h => ?_⟩,
    fun oi ho h => ?_⟩
  · have frame := s.frame_lookupEnded k (.reject reason) oi
    have ctx := s.ctx_lookupEnded k (.reject reason) oi
    have requests := s.requests_lookupEnded k (.reject reason) oi
    refine .lookupCompleted hrun hserv ho ?_
    rw [State.applyOutcome_reject (State.completionApplies_iff.mpr h),
      State.rejectAttempt_again n reason (by rw [ctx]; exact few)]
    refine ⟨_, ?_, ?_, fun j hj => ?_, ?_, fun m hm => ?_, ?_, ?_, ?_, State.nextServed ?_⟩
    · exact State.failureOwned reason oi rfl
    · rw [State.ctx_give, State.ctx_updCtx_same, State.ctx_setLine, ctx]
      rfl
    · exact (State.ctx_updCtx_other _ _ hj).trans (s.otherContexts_lookupEnded k _ oi j hj)
    · rw [State.line_give, State.line_updCtx, State.line_setLine_same, frame.line]
    · exact (State.line_setLine_other _ _ hm).trans (frame.line (by decide) m)
    · exact (State.givenOnly_give _ (.rejected n reason)).of_queues (frame.queue (by decide))
    · exact requests
    · exact (((frame.mono (by decide)).step (State.frame_setLine _ n _)).step
        (State.frame_updCtx _ k _)).step (State.frame_give _ _)
    · exact requests.2
  · have frame := s.frame_lookupEnded k (.reject reason) oi
    have ctx := s.ctx_lookupEnded k (.reject reason) oi
    have requests := s.requests_lookupEnded k (.reject reason) oi
    have queue : (s.lookupEnded k (.reject reason) oi).answerQueue = s.answerQueue :=
      frame .answerQueue (by decide)
    have cleared := State.dialogueCleared (s := s.lookupEnded k (.reject reason) oi) .attempts
      (some .rude) (by rw [frame.line]; exact hk) (by rw [queue]; exact hq)
    refine .lookupCompleted hrun hserv ho ?_
    rw [State.applyOutcome_reject (State.completionApplies_iff.mpr h),
      State.rejectAttempt_last n reason (by rw [ctx]; exact many)]
    exact ⟨s.lookupEnded k (.reject reason) oi, _, State.failureOwned reason oi rfl, requests, ctx,
      s.otherContexts_lookupEnded k _ oi, frame, cleared,
      State.nextServed_refreshAttn (cleared.inService.trans requests.2)⟩
  · have requests := s.requests_outcomeOwned (.reject reason) oi
    refine .lookupCompleted hrun hserv ho ?_
    rw [State.applyOutcome_released (mt State.completionApplies_iff.mp h)]
    exact ⟨_, State.failureOwned reason oi rfl, requests, s.frame_outcomeOwned _ oi,
      State.nextServed requests.2⟩
  · refine .lookupCompleted hrun hserv ho ?_
    rw [State.applyOutcome_released (mt State.completionApplies_iff.mp h)]
    exact ⟨s.serviceFreed, ⟨rfl, rfl⟩, s.frame_inService none, State.nextServed rfl⟩

end Sys2Proof.Machine
end

section
/-!
PROOFS. Accepted lookups: the session opened, the context freed and the grants that its line's leaving makes
room for (R52, R54, R55, R73, R109).
-/

namespace Sys2Proof.Machine

-- One proof after another: a default `by` argument waits for every earlier proof of the text.
set_option Elab.async false

/-! ## The queues and session records replaced -/

theorem Attention.setQueue_queue (a : Attention) (k : ClassNo) : a.setQueue k (a.queue k) = a := by
  simp [Attention.setQueue, Attention.queue]

/-! ## A session opened (R109) -/

/-- R109's first judgement: the budget is at or below the warning threshold. -/
def State.lowAtOpen (s : State) (a : Account) : Bool :=
  a.cls != .operator && decide (a.budget ≤ s.plan.warnThreshold)

/-- R109's second judgement: the band is outside the class's hold set. -/
def State.barredAtOpen (s : State) (a : Account) : Bool :=
  a.cls != .operator && !(s.permit a.cls).hold.getLsbD s.meter.band.val

/-- The session record that R109 opens on slot i, whose account is `a`. -/
def State.opened (s : State) (i : SlotNo) (a : Account) : Session :=
  { slot := i, openDay := s.meter.day, openMinute := s.meter.minute, seconds := 0,
    units := Vector.replicate 4 0, overrun := 0, charge := 0,
    grace := if s.barredAtOpen a then
      some { noBudget := false, bandBarred := true, left := s.plan.graceSeconds } else none,
    budgetWarned := s.lowAtOpen a, idleWarned := false, faults := 0#4 }

/-- The WARNING queue after the warnings of line n's opening (R109). -/
def State.openWarnings (s : State) (n : LineNo) (a : Account) : List Notice :=
  let q := s.attention.queue 5
  let q := if s.lowAtOpen a then queueNotice q (.warning n .budgetLow) else q
  if s.barredAtOpen a then queueNotice q (.warning n .bandBarred) else q

/-- The part with the session record `x` on line n and the WARNING queue `q`. -/
def State.withSession (s : State) (n : LineNo) (x : Session) (q : List Notice) : State :=
  (s.setSession n (some x)).setAttention (s.attention.setQueue 5 q)

section
variable {s : State} {n : LineNo} {x : Session} {q : List Notice}

theorem State.setSession_eq_withSession :
    s.setSession n (some x) = s.withSession n x (s.attention.queue 5) := by
  rw [State.withSession, Attention.setQueue_queue]
  rfl

theorem State.session_withSession : (s.withSession n x q).session n = some x :=
  s.session_setSession_same n (some x)

theorem State.setSession_withSession (y : Session) :
    (s.withSession n x q).setSession n (some y) = s.withSession n y q := by
  simp [State.withSession, State.setSession, State.setAttention]

theorem State.updSession_withSession (f : Session → Session) :
    (s.withSession n x q).updSession n f = s.withSession n (f x) q := by
  rw [State.updSession, State.session_withSession]
  exact State.setSession_withSession (f x)

theorem State.give_withSession (k : WarningKind) :
    (s.withSession n x q).give (.warning n k) =
      s.withSession n x (queueNotice q (.warning n k)) := by
  simp [State.withSession, State.give, State.setAttention, Attention.setQueue, Attention.queue,
    Notice.cls]

/-- A grace started on a session that has none (R113). -/
theorem State.addReason_withSession (g : GraceReason) (h : x.grace = none) :
    (s.withSession n x q).addReason n g = s.withSession n
      { x with grace := some (Grace.start g s.plan.graceSeconds) }
      (queueNotice q (.warning n g.warning)) := by
  simp only [State.addReason, State.session_withSession, h]
  rw [State.setSession_withSession, State.give_withSession]
  rfl

variable {i : SlotNo} {a : Account}

theorem State.judgeLowBudget_withSession (h : s.slot i = some a) :
    (s.withSession n x q).judgeLowBudget n i = if s.lowAtOpen a then
      s.withSession n { x with budgetWarned := true } (queueNotice q (.warning n .budgetLow))
    else s.withSession n x q := by
  have same : (s.withSession n x q).slot i = some a := h
  simp only [State.judgeLowBudget, same, State.lowAtOpen, Bool.and_eq_true, bne_iff_ne,
    decide_eq_true_eq, State.give_withSession, State.updSession_withSession]
  rfl

theorem State.judgeOpenBand_withSession (h : s.slot i = some a) (hg : x.grace = none) :
    (s.withSession n x q).judgeOpenBand n i = if s.barredAtOpen a then
      s.withSession n { x with grace := some (Grace.start .bandBarred s.plan.graceSeconds) }
        (queueNotice q (.warning n .bandBarred))
    else s.withSession n x q := by
  have same : (s.withSession n x q).slot i = some a := h
  simp only [State.judgeOpenBand, State.classOf, same, Option.map_some, State.barredAtOpen,
    Bool.and_eq_true, bne_iff_ne, State.addReason_withSession _ hg]
  rfl

/-- An opening leaves the session record and the warnings of its two judgements (R109). -/
theorem State.openSession_eq (h : s.slot i = some a) :
    s.openSession n i = s.withSession n (s.opened i a) (s.openWarnings n a) := by
  rw [State.openSession, State.setSession_eq_withSession, State.judgeLowBudget_withSession h]
  by_cases low : s.lowAtOpen a = true
  · rw [if_pos low, State.judgeOpenBand_withSession h rfl]
    by_cases barred : s.barredAtOpen a = true <;>
      simp [low, barred, State.opened, State.openWarnings, State.newSession, Grace.start, Grace.put]
  · rw [if_neg low, State.judgeOpenBand_withSession h rfl]
    by_cases barred : s.barredAtOpen a = true <;>
      simp [low, barred, State.opened, State.openWarnings, State.newSession, Grace.start, Grace.put]

end

/-! ## A call accepted (R55, R143) -/

/-- An account with one more session open and its failures forgotten (R55). -/
def Account.opens (a : Account) : Account :=
  { a with openSessions := a.openSessions + 1, failures := 0 }

/-- The slot, the line and the context of a call accepted on slot i. -/
def State.callAccepted (s : State) (k : CtxNo) (n : LineNo) (i : SlotNo) : State :=
  (((s.lookupEnded k .accept (some i)).updSlot i Account.opens).updLine n LineRecord.accepted).updCtx k
    Context.freed

/-- A call accepted on slot i, up to the grants it makes room for (R55). -/
def State.signedOnCall (s : State) (k : CtxNo) (n : LineNo) (i : SlotNo) : State :=
  State.withdrawPrompts (((s.callAccepted k n i).openSession n i).give
    (.signed n (((s.callAccepted k n i).openSession n i).line n).speed)) n

theorem State.acceptCall_lookupEnded (s : State) (k : CtxNo) (n : LineNo) (i : SlotNo) :
    (s.lookupEnded k .accept (some i)).acceptCall k n i = (s.signedOnCall k n i).evaluateGrants := rfl

theorem State.lines_callAccepted (s : State) (k : CtxNo) (n : LineNo) (i : SlotNo) :
    (s.callAccepted k n i).lines = s.lines.set n (s.line n).accepted := rfl

theorem State.contexts_callAccepted (s : State) (k : CtxNo) (n : LineNo) (i : SlotNo) :
    (s.callAccepted k n i).contexts =
      s.contexts.set k { s.ctx k with holder := none, signOnTime := none, lookup := .none } := by
  simp [State.callAccepted, State.lookupEnded, State.endLookup, Context.freed, State.ctx,
    State.outcomeOwned, State.lookupOwnEffect, State.serviceFreed]

section
variable {s : State} {i : SlotNo} {a : Account} (k : CtxNo) (n : LineNo)

theorem State.slot_callAccepted (h : s.slot i = some a) :
    (s.callAccepted k n i).slot i = some a.opens :=
  (State.slot_updSlot_same _ i Account.opens).trans (congrArg (Option.map Account.opens) h)

/-- The opening reads the account's class and budget, which the acceptance leaves. -/
theorem State.signedOnCall_eq (h : s.slot i = some a) :
    s.signedOnCall k n i = State.withdrawPrompts (((s.callAccepted k n i).withSession n (s.opened i a)
      (s.openWarnings n a)).give (.signed n (s.line n).speed)) n := by
  have line : (s.callAccepted k n i).line n = (s.line n).accepted :=
    State.line_of_lines (s.lines_callAccepted k n i)
  have speed : ((s.callAccepted k n i).line n).speed = (s.line n).speed := by
    rw [line]
    rfl
  rw [State.signedOnCall, State.openSession_eq (s.slot_callAccepted k n h), ← speed]
  rfl

theorem State.slot_signedOnCall (h : s.slot i = some a) (j : SlotNo) :
    (s.signedOnCall k n i).slot j = (s.callAccepted k n i).slot j := by
  rw [State.signedOnCall_eq k n h]
  rfl

theorem State.session_signedOnCall (h : s.slot i = some a) (m : LineNo) :
    (s.signedOnCall k n i).session m = (s.setSession n (some (s.opened i a))).session m := by
  rw [State.signedOnCall_eq k n h]
  rfl

theorem State.requests_signedOnCall (h : s.slot i = some a) :
    (s.signedOnCall k n i).directory.queue = s.directory.queue
      ∧ (s.signedOnCall k n i).directory.inService = none := by
  rw [State.signedOnCall_eq k n h]
  exact ⟨rfl, rfl⟩

theorem State.queue_signedOnCall (h : s.slot i = some a) (j : ClassNo) :
    (s.signedOnCall k n i).attention.queue j =
      if j = 1 then queueNotice (s.attention.queue 1) (.signed n (s.line n).speed)
      else if j = 3 ∨ j = 4 then withoutLine n (s.attention.queue j)
      else if j = 5 then s.openWarnings n a else s.attention.queue j := by
  rw [State.signedOnCall_eq k n h]
  have same : (s.callAccepted k n i).attention = s.attention := rfl
  fin_cases j <;>
    simp [State.withSession, Attention.queue_setQueue_other, Notice.cls, same]

/-- What the acceptance's grants read is what they read with the line, its context and its session as the
acceptance leaves them. -/
theorem State.grantSame_signedOnCall (h : s.slot i = some a) :
    GrantSame (((s.setLine n (s.line n).accepted).setCtx k
        { s.ctx k with holder := none, signOnTime := none, lookup := .none }).setSession n
          (some (s.opened i a))) (s.signedOnCall k n i) := by
  have notices := s.queue_signedOnCall k n h 6
  rw [State.signedOnCall_eq k n h] at notices ⊢
  exact ⟨s.lines_callAccepted k n i, s.contexts_callAccepted k n i, rfl, rfl,
    ⟨rfl, rfl, rfl, rfl, rfl⟩, rfl, rfl, notices⟩

end

/-- Settles O35: the call up to its grants, the grants on it, and the next service. -/
theorem anAcceptedLookupOpensASession : Obligations.AnAcceptedLookupOpensASession := by
  intro name check long k n i a s hrun hserv ho ha held checking waits hq
  have applies : s.completionApplies k n = true :=
    State.completionApplies_iff.mpr ⟨held, checking, waits⟩
  have before := State.grantSame_signedOnCall k n ha
  have granted := State.granted_evaluateGrants (s.signedOnCall k n i)
  have grants := State.frame_evaluateGrants (s.signedOnCall k n i)
  have service := (State.frame_startService (s.signedOnCall k n i).evaluateGrants).step
    (State.frame_refreshAttn _)
  have after := (grants.mono (bs := [.lines, .answerQueue, .contexts, .queues, .requests])
    (by decide)).step service
  have frame := (s.frame_lookupCompleted).step (State.frame_refreshAttn _)
  rw [State.lookupCompleted_eq hserv ho, State.applyOutcome_accept applies,
    State.acceptCall_lookupEnded] at frame
  have line : (s.signedOnCall k n i).evaluateGrants.line n = (s.line n).accepted := by
    rcases granted.lines n with ⟨same, -⟩ | ⟨rings, -⟩
    · exact same.trans (State.line_of_lines before.lines)
    · exact absurd (before.answerQueue ▸ rings) hq
  have queue := fun j (hj : j ≠ 6) => (service.queue (by decide) j).trans
    ((granted.otherNotices j hj).trans (s.queue_signedOnCall k n ha j))
  obtain ⟨waiting, serving⟩ := State.requests_signedOnCall k n ha
  obtain ⟨kept, idle⟩ := grants .requests (by decide)
  have none_served := idle.trans serving
  refine .lookupCompleted hrun hserv ho ?_
  rw [State.applyOutcome_accept applies, State.acceptCall_lookupEnded]
  refine ⟨?_, fun j hj => ?_, (service.line (by decide) n).trans line,
    ⟨_, before.grantsMade, kept.trans waiting, none_served, fun still => ?_,
      State.nextServed_refreshAttn none_served⟩, ?_, fun m hm => ?_, queue 1 (by decide),
    queue 3 (by decide), queue 4 (by decide), queue 5 (by decide), fun j hj => ?_,
    frame.mono (by decide)⟩
  · exact (after.slot (by decide) i).trans
      ((s.slot_signedOnCall k n ha i).trans (s.slot_callAccepted k n ha))
  · exact (after.slot (by decide) j).trans
      ((s.slot_signedOnCall k n ha j).trans (State.slot_updSlot_other _ _ hj))
  · rw [State.evaluateGrants_of_noOneRings (before.answerQueue.trans still)]
    exact ⟨State.ctx_of_contexts before.contexts, State.otherContexts_of_contexts before.contexts,
      State.otherLines_of_lines before.lines, before.answerQueue.trans still, before.notices⟩
  · exact (after.session (by decide) n).trans
      ((s.session_signedOnCall k n ha n).trans (s.session_setSession_same n _))
  · exact (after.session (by decide) m).trans
      ((s.session_signedOnCall k n ha m).trans (State.session_setSession_other s _ hm))
  · rcases hj with rfl | rfl | rfl
    · exact queue 0 (by decide)
    · exact queue 2 (by decide)
    · exact queue 7 (by decide)

end Sys2Proof.Machine
end

section
/-!
SUPPORT. The sessions on a slot, counted: what leaves the count of R77 as it is, and what an open, a close
and a replaced account make of it.
-/

namespace Sys2Proof.Machine

-- One proof after another: a default `by` argument waits for every earlier proof of the text.
set_option Elab.async false

/-! ## The sessions that name a slot (R77) -/

/-- The sessions that name slot i. -/
def State.sessionsOn (s : State) (i : SlotNo) : Nat :=
  ((List.finRange 64).filter fun n => (s.session n).any fun x => x.slot == i).length

theorem sessionsCounted_iff {s : State} : SessionsCounted s ↔
    (∀ n x, s.session n = some x → (s.slot x.slot).isSome = true)
      ∧ ∀ i a, s.slot i = some a →
        a.openSessions = s.sessionsOn i ∧ a.openSessions ≤ a.maxSessions := Iff.rfl

theorem SessionsCounted.named {s : State} (h : SessionsCounted s) {n : LineNo} {x : Session}
    (hx : s.session n = some x) : (s.slot x.slot).isSome = true := h.1 n x hx

theorem SessionsCounted.counted {s : State} (h : SessionsCounted s) {i : SlotNo} {a : Account}
    (ha : s.slot i = some a) : a.openSessions = s.sessionsOn i ∧ a.openSessions ≤ a.maxSessions :=
  h.2 i a ha

/-- No session names a slot that is EMPTY or counts no open session. -/
theorem SessionsCounted.unnamed {s : State} (h : SessionsCounted s) {i : SlotNo}
    (free : openIn (s.slot i) = 0) {n : LineNo} {x : Session} (hx : s.session n = some x) :
    x.slot ≠ i := by
  rintro rfl
  obtain ⟨a, ha⟩ := Option.isSome_iff_exists.mp (h.named hx)
  have none_named : s.sessionsOn x.slot = 0 := by
    rw [← (h.counted ha).1]
    simpa [ha, openIn] using free
  have not_named := List.filter_eq_nil_iff.mp (List.length_eq_zero_iff.mp none_named) n
    (List.mem_finRange n)
  simp [hx] at not_named

theorem SessionsCounted.sessionsOn_of_free {s : State} (h : SessionsCounted s) {i : SlotNo}
    (free : openIn (s.slot i) = 0) : s.sessionsOn i = 0 := by
  refine List.length_eq_zero_iff.mpr (List.filter_eq_nil_iff.mpr fun n _ => ?_)
  cases hx : s.session n with
  | none => simp
  | some x => simpa using h.unnamed free hx

/-- Sessions that name the slots they named are counted as they were. -/
theorem State.sessionsOn_of_same {s t : State}
    (h : ∀ n, (t.session n).map Session.slot = (s.session n).map Session.slot) (i : SlotNo) :
    t.sessionsOn i = s.sessionsOn i := by
  have any : ∀ o : Option Session, (o.any fun x => x.slot == i) = (o.map Session.slot).any (· == i) := by
    intro o
    cases o <;> rfl
  simp only [State.sessionsOn, any, h]

/-- A session more is counted on the slot it names. -/
theorem State.sessionsOn_of_added {s t : State} {n : LineNo} {x : Session} (free : s.session n = none)
    (own : t.session n = some x) (others : OtherSessions n s t) (i : SlotNo) :
    t.sessionsOn i = s.sessionsOn i + if x.slot = i then 1 else 0 := by
  by_cases hi : x.slot = i
  · rw [if_pos hi]
    exact length_filter_flip (k := n) (by simp [free]) (by simp [own, hi])
      (fun m hm => by rw [others m hm]) (List.nodup_finRange 64) (List.mem_finRange n)
  · rw [if_neg hi]
    refine congrArg List.length (List.filter_congr fun m _ => ?_)
    by_cases hm : m = n
    · simp [hm, own, free, hi]
    · rw [others m hm]

/-! ## What leaves the count -/

/-- What R77 reads of an account. -/
def Account.room (a : Account) : Nat × Nat := (a.openSessions, a.maxSessions)

/-- The count goes over where every session names the slot it named and every slot has the room it had. -/
theorem SessionsCounted.of_same {s t : State} (h : SessionsCounted s)
    (sessions : ∀ n, (t.session n).map Session.slot = (s.session n).map Session.slot)
    (slots : ∀ i, (t.slot i).map Account.room = (s.slot i).map Account.room) : SessionsCounted t := by
  refine sessionsCounted_iff.mpr ⟨fun n y hy => ?_, fun i b hb => ?_⟩
  · have named := sessions n
    rw [hy, Option.map_some, eq_comm, Option.map_eq_some_iff] at named
    obtain ⟨x, hx, e⟩ := named
    have held := congrArg Option.isSome (slots y.slot)
    rw [Option.isSome_map, Option.isSome_map] at held
    rw [held, ← e]
    exact h.named hx
  · have room := slots i
    rw [hb, Option.map_some, eq_comm, Option.map_eq_some_iff] at room
    obtain ⟨a, ha, e⟩ := room
    obtain ⟨eopen, emax⟩ := Prod.mk.inj e
    rw [State.sessionsOn_of_same sessions, ← eopen, ← emax]
    exact h.counted ha

theorem SessionsCounted.of_frame {bs : List Block} {s t : State} (h : SessionsCounted s)
    (frame : SameBut bs s t) (slots : .slots ∉ bs := by decide)
    (sessions : .sessions ∉ bs := by decide) : SessionsCounted t :=
  h.of_same (fun n => by rw [frame.session sessions]) fun i => by rw [frame.slot slots]

theorem SessionsCounted.ite {s t : State} {c : Prop} [Decidable c] (h : c → SessionsCounted s)
    (h' : ¬ c → SessionsCounted t) : SessionsCounted (if c then s else t) := by
  split
  · exact h ‹_›
  · exact h' ‹_›

/-- A walk over the sessions keeps the count where every visit does. -/
theorem SessionsCounted.forSessions {s : State} {f : LineNo → Session → State → State}
    (h : SessionsCounted s) (visit : ∀ n x u, SessionsCounted u → SessionsCounted (f n x u)) :
    SessionsCounted (s.forSessions f) :=
  State.forSessions_induction h fun n x u hu _ => visit n x u hu

/-- A session changed but for the slot it names. -/
theorem SessionsCounted.updSession {s : State} (h : SessionsCounted s) (n : LineNo)
    {f : Session → Session} (slot : ∀ x, (f x).slot = x.slot := by intro x; rfl) :
    SessionsCounted (s.updSession n f) := by
  refine h.of_same (fun m => ?_) fun i => rfl
  by_cases hm : m = n
  · subst hm
    simp [Function.comp_def, slot]
  · rw [s.session_updSession_other f hm]

/-- An account changed but for its open and max sessions. -/
theorem SessionsCounted.updSlot {s : State} (h : SessionsCounted s) (i : SlotNo)
    {f : Account → Account} (room : ∀ a, (f a).room = a.room := by intro a; rfl) :
    SessionsCounted (s.updSlot i f) := by
  refine h.of_same (fun m => rfl) fun j => ?_
  by_cases hj : j = i
  · subst hj
    simp [Function.comp_def, room]
  · rw [s.slot_updSlot_other f hj]

theorem SessionsCounted.updLine {s : State} (h : SessionsCounted s) (n : LineNo)
    (f : LineRecord → LineRecord) : SessionsCounted (s.updLine n f) := h.of_frame (s.frame_updLine n f)

theorem SessionsCounted.give {s : State} (h : SessionsCounted s) (e : Notice) :
    SessionsCounted (s.give e) := h.of_frame (s.frame_give e)

/-! ## A slot replaced, a session opened and a session closed -/

/-- A slot replaced: EMPTY where no session names it, or by an account that counts the sessions that do. -/
theorem SessionsCounted.setSlot {s : State} (h : SessionsCounted s) {i : SlotNo} {a : Option Account}
    (empty : a = none → openIn (s.slot i) = 0)
    (counted : ∀ b, a = some b → b.openSessions = s.sessionsOn i ∧ b.openSessions ≤ b.maxSessions) :
    SessionsCounted (s.setSlot i a) := by
  refine sessionsCounted_iff.mpr ⟨fun n x hx => ?_, fun j b hb => ?_⟩
  · by_cases hi : x.slot = i
    · cases ha : a with
      | none => exact absurd hi (h.unnamed (empty ha) hx)
      | some b => simp [hi]
    · rw [s.slot_setSlot_other a hi]
      exact h.named hx
  · by_cases hj : j = i
    · subst hj
      exact counted b (by simpa using hb)
    · rw [s.slot_setSlot_other a hj] at hb
      exact h.counted hb

/-- A session opened on a slot with room, which counts it (R55, R77). -/
theorem SessionsCounted.opened {s t : State} {n : LineNo} {x : Session} {a b : Account}
    (h : SessionsCounted s) (free : s.session n = none) (ha : s.slot x.slot = some a)
    (room : a.openSessions ≠ a.maxSessions) (own : t.session n = some x)
    (sessions : OtherSessions n s t) (hb : t.slot x.slot = some b)
    (counts : b.room = (a.openSessions + 1, a.maxSessions)) (slots : OtherSlots x.slot s t) :
    SessionsCounted t := by
  obtain ⟨eopen, emax⟩ := Prod.mk.inj counts
  have added := State.sessionsOn_of_added free own sessions
  refine sessionsCounted_iff.mpr ⟨fun m y hy => ?_, fun i c hc => ?_⟩
  · by_cases hi : y.slot = x.slot
    · simp [hi, hb]
    · rw [slots _ hi]
      by_cases hm : m = n
      · rw [hm, own] at hy
        exact absurd (Option.some.inj hy ▸ rfl) hi
      · exact h.named (sessions m hm ▸ hy)
  · by_cases hi : i = x.slot
    · subst hi
      obtain rfl := Option.some.inj (hb.symm.trans hc)
      obtain ⟨hcount, hmax⟩ := h.counted ha
      rw [added, if_pos rfl, eopen, emax, hcount]
      exact ⟨rfl, Nat.lt_of_le_of_ne (hcount ▸ hmax) (hcount ▸ room)⟩
    · rw [added, if_neg (Ne.symm hi)]
      exact h.counted (slots i hi ▸ hc)

/-- A session closed, with its slot counting one less (R77, R118). -/
theorem SessionsCounted.closed {s t : State} {n : LineNo} {x : Session} (h : SessionsCounted s)
    (hx : s.session n = some x) (own : t.session n = none) (sessions : OtherSessions n s t)
    (slot : t.slot x.slot =
      (s.slot x.slot).map fun a => { a with openSessions := a.openSessions - 1 })
    (slots : OtherSlots x.slot s t) : SessionsCounted t := by
  have added := State.sessionsOn_of_added own hx fun m hm => (sessions m hm).symm
  refine sessionsCounted_iff.mpr ⟨fun m y hy => ?_, fun i c hc => ?_⟩
  · have hm : m ≠ n := by
      rintro rfl
      simp [own] at hy
    have held := h.named (sessions m hm ▸ hy)
    by_cases hi : y.slot = x.slot
    · rw [hi, slot, Option.isSome_map, ← hi]
      exact held
    · rw [slots _ hi]
      exact held
  · by_cases hi : i = x.slot
    · subst hi
      obtain ⟨a, ha, rfl⟩ := Option.map_eq_some_iff.mp (slot.symm.trans hc)
      obtain ⟨hcount, hmax⟩ := h.counted ha
      rw [added, if_pos rfl] at hcount
      exact ⟨by dsimp only; omega, (Nat.sub_le _ _).trans hmax⟩
    · have same : s.sessionsOn i = t.sessionsOn i := (added i).trans (if_neg (Ne.symm hi) ▸ rfl)
      rw [← same]
      exact h.counted (slots i hi ▸ hc)

end Sys2Proof.Machine
end

section
/-!
SUPPORT. What the operations of a call make of the sessions on the slots: graces and charges, closes, the
line cells, commits and completed lookups (R77).
-/

namespace Sys2Proof.Machine

-- One proof after another: a default `by` argument waits for every earlier proof of the text.
set_option Elab.async false

/-! ## Graces and warnings (R113) -/

/-- A session record replaced by one of the same slot. -/
theorem SessionsCounted.replaceSession {s : State} (h : SessionsCounted s) {n : LineNo} {x y : Session}
    (hx : s.session n = some x) (slot : y.slot = x.slot := by rfl) :
    SessionsCounted (s.setSession n (some y)) := by
  refine h.of_same (fun m => ?_) fun i => rfl
  by_cases hm : m = n
  · subst hm
    simp [hx, slot]
  · rw [s.session_setSession_other _ hm]

theorem SessionsCounted.addReason {s : State} (h : SessionsCounted s) (n : LineNo) (g : GraceReason) :
    SessionsCounted (s.addReason n g) := by
  simp only [State.addReason]
  split
  · exact h
  · rename_i x hx
    split
    · exact (h.replaceSession hx).give _
    · exact .ite (fun _ => h) fun _ => (h.replaceSession hx).give _

theorem SessionsCounted.dropReason {s : State} (h : SessionsCounted s) (n : LineNo) (g : GraceReason) :
    SessionsCounted (s.dropReason n g) := h.updSession n

theorem SessionsCounted.endEmptyGrace {s : State} (h : SessionsCounted s) (n : LineNo) :
    SessionsCounted (s.endEmptyGrace n) := h.updSession n

theorem SessionsCounted.judgeBand {s : State} (h : SessionsCounted s) (n : LineNo) (i : SlotNo) :
    SessionsCounted (s.judgeBand n i) := by
  simp only [State.judgeBand]
  split
  · exact h
  · exact h
  · exact .ite (fun _ => h.addReason n _) fun _ => (h.dropReason n _).endEmptyGrace n

theorem SessionsCounted.putReason {s : State} (h : SessionsCounted s) (n : LineNo) (g : GraceReason)
    (due : Bool) : SessionsCounted (s.putReason n g due) :=
  .ite (fun _ => h.addReason n g) fun _ => h.dropReason n g

theorem SessionsCounted.alignGrace {s : State} (h : SessionsCounted s) (n : LineNo) (r : Staged)
    (a : Account) : SessionsCounted (s.alignGrace n r a) := by
  have judged := h.putReason n .noBudget a.budgetGone
  exact SessionsCounted.endEmptyGrace
    (.ite (fun _ => judged.putReason n .bandBarred _) fun _ => judged) n

theorem SessionsCounted.alignGraces {s : State} (h : SessionsCounted s) (r : Staged) (i : SlotNo) :
    SessionsCounted (s.alignGraces r i) := by
  refine .ite (fun _ => h.forSessions fun n x u hu => ?_) fun _ => h
  split
  · exact hu
  · exact .ite (fun _ => hu.alignGrace n r _) fun _ => hu

/-! ## Closes (R114, R116, R118) -/

theorem SessionsCounted.closeSession {s : State} (h : SessionsCounted s) (n : LineNo)
    (reason : CloseReason) (hang : Option Manner) :
    SessionsCounted (s.closeSession n reason hang) := by
  cases hx : s.session n with
  | none => simpa only [State.closeSession, hx] using h
  | some x =>
    have sessions : ∀ m, (s.closeSession n reason hang).session m = (s.setSession n none).session m := by
      intro m
      simp only [State.closeSession, hx]
      cases hang <;> rfl
    have slots : ∀ i, (s.closeSession n reason hang).slot i =
        (s.updSlot x.slot fun a => { a with openSessions := a.openSessions - 1 }).slot i := by
      intro i
      simp only [State.closeSession, hx]
      cases hang <;> rfl
    refine h.closed hx ?_ (fun m hm => ?_) ?_ fun i hi => ?_
    · rw [sessions, State.session_setSession_same]
    · rw [sessions, s.session_setSession_other none hm]
    · rw [slots, State.slot_updSlot_same]
    · rw [slots, s.slot_updSlot_other _ hi]

theorem SessionsCounted.clearDialogue {s : State} (h : SessionsCounted s) (n : LineNo)
    (reason : RejectReason) (hang : Option Manner) : SessionsCounted (s.clearDialogue n reason hang) :=
  h.of_frame (s.frame_clearDialogue n reason hang)

theorem SessionsCounted.graceExpired {s : State} (h : SessionsCounted s) (n : LineNo) :
    SessionsCounted (s.graceExpired n) := by
  simp only [State.graceExpired]
  split
  · exact h
  · split
    · exact h
    · exact .ite (fun _ => h.closeSession n _ _) fun _ => h

theorem SessionsCounted.idleExpired {s : State} (h : SessionsCounted s) (n : LineNo) :
    SessionsCounted (s.idleExpired n) := by
  simp only [State.idleExpired]
  split
  · exact h
  · split
    · exact h
    · exact h
    · exact .ite (fun _ => h.closeSession n _ _) fun _ => h

/-! ## Charging (R110 to R112) -/

theorem SessionsCounted.judgeThreshold {s : State} (h : SessionsCounted s) (i : SlotNo) :
    SessionsCounted (s.judgeThreshold i) := by
  simp only [State.judgeThreshold]
  split
  · exact h
  · refine .ite (fun _ => (h.updSlot i).forSessions fun n x u hu => ?_) fun _ => h
    exact .ite (fun _ => (hu.give _).updSession n) fun _ => hu

theorem SessionsCounted.judgeExhaustion {s : State} (h : SessionsCounted s) (i : SlotNo) :
    SessionsCounted (s.judgeExhaustion i) := by
  simp only [State.judgeExhaustion]
  split
  · exact h
  · exact .ite (fun _ => h.forSessions fun n x u hu =>
      .ite (fun _ => hu.addReason n _) fun _ => hu) fun _ => h

theorem SessionsCounted.chargeUnit {s : State} (h : SessionsCounted s) (n : LineNo) (i : SlotNo) :
    SessionsCounted (s.chargeUnit n i) := by
  simp only [State.chargeUnit]
  split
  · exact h
  · rename_i a ha
    have charged : SessionsCounted (s.setSlot i (some a.charged)) :=
      h.setSlot nofun fun b hb => Option.some.inj hb ▸ (h.counted ha :)
    exact .ite (fun _ => ((charged.updSession n).judgeThreshold i).judgeExhaustion i)
      fun _ => h.updSession n

theorem SessionsCounted.countCharge {s : State} (h : SessionsCounted s) (n : LineNo) (x : Session)
    (rate : Nat) : SessionsCounted (s.countCharge n x rate) :=
  .ite (fun _ => (h.updSession n).chargeUnit n _) fun _ => h.updSession n

theorem SessionsCounted.runGrace {s : State} (h : SessionsCounted s) (n : LineNo) :
    SessionsCounted (s.runGrace n) := SessionsCounted.graceExpired (h.updSession n) n

theorem SessionsCounted.visitSecond {s : State} (h : SessionsCounted s) (running : Bool) (n : LineNo)
    (x : Session) : SessionsCounted (s.visitSecond running n x) := by
  have counted : SessionsCounted
      (s.updSession n fun x => { x with seconds := countUp x.seconds Config.maxSeconds }) :=
    h.updSession n
  simp only [State.visitSecond]
  split
  · exact counted
  · exact counted
  · exact .ite (fun _ => counted) fun _ =>
      .ite (fun _ => (counted.countCharge n x _).runGrace n) fun _ => counted.countCharge n x _

/-! ## Ticks and the clock (R76, R100, R102, R115, R116) -/

theorem SessionsCounted.setMeter {s : State} (h : SessionsCounted s) {m : Meter}
    (sessions : m.sessions = s.meter.sessions := by rfl) : SessionsCounted { s with meter := m } :=
  h.of_frame (State.frame_setMeter sessions)

theorem SessionsCounted.secondTicked {s : State} (h : SessionsCounted s) :
    SessionsCounted s.secondTicked := by
  refine .ite (fun _ => (h.setMeter ?_).forSessions fun n x u hu => hu.visitSecond _ n x) fun _ => h
  simp only [Meter.countSecondTick]
  split <;> rfl

theorem SessionsCounted.reevaluateBand {s : State} (h : SessionsCounted s) :
    SessionsCounted s.reevaluateBand :=
  .ite (fun _ => h) fun _ => h.setMeter.forSessions fun n _ _ hu => hu.judgeBand n _

theorem SessionsCounted.idleCheck {s : State} (h : SessionsCounted s) (n : LineNo) (x : Session) :
    SessionsCounted (s.idleCheck n x) := by
  simp only [State.idleCheck]
  split
  · exact h
  · exact h
  · have counted := h.updLine n fun r => { r with idle := r.idleAfter, activity := false }
    exact SessionsCounted.idleExpired
      (.ite (fun _ => (counted.give _).updSession n) fun _ => counted) n

theorem Account.room_endLock (a : Account) : a.endLock.room = a.room := by
  simp only [Account.endLock]
  split <;> rfl

theorem Account.room_tickLock (a : Account) : a.tickLock.room = a.room := by
  simp only [Account.tickLock]
  split <;> rfl

theorem SessionsCounted.tickLocks {s : State} (h : SessionsCounted s) : SessionsCounted s.tickLocks := by
  refine h.of_same (fun _ => rfl) fun i => ?_
  rw [State.slot_tickLocks, Option.map_map]
  refine congrArg (Option.map · (s.slot i)) (funext fun a => ?_)
  exact a.tickLock.room_endLock.trans a.room_tickLock

theorem SessionsCounted.minuteTicked {s : State} (h : SessionsCounted s) :
    SessionsCounted s.minuteTicked := by
  refine .ite (fun _ => ?_) fun _ => h
  have clock : SessionsCounted { s with meter :=
      { s.meter.advanceClock with minutesDue := s.meter.minutesDue - 1 } } :=
    h.setMeter s.meter.sessions_advanceClock
  exact (clock.reevaluateBand.forSessions fun n x _ hu => hu.idleCheck n x).tickLocks

theorem SessionsCounted.writeClockMinute {s : State} (h : SessionsCounted s) (w : Word) :
    SessionsCounted (s.writeClockMinute w) :=
  .ite (fun _ => SessionsCounted.reevaluateBand h.setMeter) fun _ => h.of_frame (s.frame_refuse _ _)

theorem SessionsCounted.writeClockDay {s : State} (h : SessionsCounted s) (w : Word) :
    SessionsCounted (s.writeClockDay w) := SessionsCounted.reevaluateBand h.setMeter

theorem SessionsCounted.writePermit {s : State} (h : SessionsCounted s) (c : AccountClass) (w : Word) :
    SessionsCounted (s.writePermit c w) :=
  h.setMeter.forSessions fun n _ _ hu => .ite (fun _ => hu.judgeBand n _) fun _ => hu

/-! ## The line cells (R4 to R9, R13, R18 to R20) -/

theorem SessionsCounted.glitch {s : State} (h : SessionsCounted s) (n : LineNo) :
    SessionsCounted (s.glitch n) :=
  .ite (fun _ => (h.updLine n _).updSession n) fun _ => h.updLine n _

/-- Only a doubt that ends on a line SIGNED_ON touches a session, and not its slot (R8). -/
theorem SessionsCounted.carrierRule {s : State} (h : SessionsCounted s) (n : LineNo) (w : Word) :
    SessionsCounted (s.carrierRule n w) := by
  have speed : SessionsCounted (s.setSpeed n w) := h.updLine n _
  simp only [State.carrierRule]
  cases hst : (s.line n).state with
  | idle | ringing =>
    exact .ite (fun _ => speed.of_frame (State.frame_unsolicited _ n)) fun _ => h
  | answering => exact .ite (fun _ => speed.of_frame (State.frame_answered _ n)) fun _ => h
  | name | password | checking | signedOn =>
    dsimp only
    split
    · exact .ite (fun _ => h.glitch n) fun _ => h
    · exact .ite (fun _ => h.updLine n _) fun _ => .ite (fun _ => speed) fun _ => h
  | off | passive | clearing => exact h

theorem SessionsCounted.statusWritten {s : State} (h : SessionsCounted s) (n : LineNo) (w : Word) :
    SessionsCounted (s.statusWritten n w) := by
  have written := h.of_frame (s.frame_writeArea (statusOffset n) w)
  have ruled : SessionsCounted (((((s.writeArea (statusOffset n) w).carrierRule n w).ringRule n
      w).setLastSeen n w).testClearing n) :=
    (((written.carrierRule n w).of_frame (State.frame_ringRule _ n w)).of_frame
      (State.frame_setLastSeen _ n w)).of_frame (State.frame_testClearing _ n)
  simp only [State.statusWritten]
  cases ((s.writeArea (statusOffset n) w).line n).state with
  | passive => exact written
  | off => exact written.of_frame (State.frame_setLastSeen _ n w)
  | idle | ringing | answering | name | password | checking | signedOn | clearing => exact ruled

theorem SessionsCounted.doubtExpired {s : State} (h : SessionsCounted s) (n : LineNo) :
    SessionsCounted (s.doubtExpired n) := by
  have ended := h.updLine n fun r => { r with doubt := none }
  exact .ite (fun _ => .ite (fun _ => ended.clearDialogue n _ _) fun _ =>
    .ite (fun _ => ended.closeSession n _ _) fun _ => ended) fun _ => h

theorem SessionsCounted.processorCommand {s : State} (h : SessionsCounted s) (n : LineNo) (w : Word) :
    SessionsCounted (s.processorCommand n w) := by
  have written := h.of_frame (s.frame_writeArea (commandOffset n) w)
  exact .ite (fun _ => .ite (fun _ => written.closeSession n _ _) fun _ =>
    .ite (fun _ => written.clearDialogue n _ _) fun _ => written) fun _ => written

theorem SessionsCounted.modeLoaded {s : State} (h : SessionsCounted s) (n : LineNo) (m : LineMode) :
    SessionsCounted (s.modeLoaded n m) := by
  have moded := h.updLine n fun r => { r with mode := m }
  refine .ite (fun _ => h) fun _ => ?_
  cases hst : (s.line n).state with
  | off | passive | idle | clearing => exact moded.updLine n _
  | ringing => exact (moded.of_frame (State.frame_leaveQueue _ n)).updLine n _
  | answering | name | password | checking => exact moded.clearDialogue n _ _
  | signedOn => exact moded.closeSession n _ _

theorem SessionsCounted.hangRequested {s : State} (h : SessionsCounted s) (n : LineNo) (m : Manner) :
    SessionsCounted (s.hangRequested n m) := by
  simp only [State.hangRequested]
  cases hst : (s.line n).state with
  | signedOn => exact h.closeSession n _ _
  | answering | name | password | checking => exact h.clearDialogue n _ _
  | ringing => exact (h.of_frame (s.frame_leaveQueue n)).updLine n _
  | clearing => exact .ite (fun _ => h.of_frame (s.frame_hangUp n _)) fun _ => h
  | idle | off | passive => exact h

theorem SessionsCounted.writeSetting {s : State} (h : SessionsCounted s) (n : LineNo) (w : Word) :
    SessionsCounted (s.writeSetting n w) := by
  have loaded : SessionsCounted (s.settingModeLoad n w) := by
    simp only [State.settingModeLoad]
    split
    · exact h.modeLoaded n _
    · exact h
  refine .ite (fun _ => h.of_frame (s.frame_refuse _ _)) fun _ => ?_
  simp only [State.settingHangRequest]
  split
  · exact loaded.hangRequested n _
  · exact loaded
  · exact loaded

theorem SessionsCounted.receive {s : State} (h : SessionsCounted s) (n : LineNo) (i : Fin 32)
    (w : Word) : SessionsCounted (s.receive n i w) := by
  have written := h.of_frame (s.frame_writeArea (receiveOffset n i) (s.entryInMemory n w))
  have marked := written.updLine n fun r =>
    { r with sticky := r.sticky ||| (entryMarks w).setWidth 5 }
  simp only [State.receive]
  cases ((s.writeArea (receiveOffset n i) (s.entryInMemory n w)).line n).state with
  | passive => exact written
  | off | idle | ringing | clearing => exact marked
  | signedOn => exact (marked.updLine n _).updSession n
  | answering | name | password | checking =>
    dsimp only
    split
    · exact marked.of_frame (State.frame_dialogueEntry _ _ n w)
    · exact marked

/-! ## Commits (R92 to R95) -/

/-- An ALTER leaves the open sessions, and not above the max sessions (R90, R93). -/
theorem State.alteredAccount_counted (s : State) {r : Staged} {a : Account}
    (room : a.openSessions ≤ a.maxSessions)
    (max : r.flagMaxSess = true → a.openSessions ≤ r.maxSessions) :
    (s.alteredAccount r a).openSessions = a.openSessions
      ∧ (s.alteredAccount r a).openSessions ≤ (s.alteredAccount r a).maxSessions :=
  s.alteredAccount_induction
    (P := fun b => b.openSessions = a.openSessions ∧ b.openSessions ≤ b.maxSessions) ⟨rfl, room⟩
    (fun _ _ h => h) (fun _ h => h) (fun _ h => h) (fun _ h => h)
    (fun hf _ h => ⟨h.1, h.1 ▸ max hf⟩) (fun _ _ h => h) (fun _ h => h) fun _ h => h

/-- R90's check that keeps a LOAD and an ERASE from a slot with sessions open. -/
theorem State.free_of_done {s : State} {r : Staged} (hop : r.op = some .load ∨ r.op = some .erase)
    (h : s.commitOutcome r = .done) : openIn (s.slot r.target) = 0 := by
  by_contra busy
  have open_sessions : 0 < openIn (s.slot r.target) := Nat.pos_of_ne_zero busy
  rcases hop with hop | hop <;> simp only [State.commitOutcome, hop, if_pos open_sessions] at h
  · cases h
  · split at h <;> cases h

theorem SessionsCounted.applyCommit {s : State} {r : Staged} (h : SessionsCounted s)
    (done : s.commitOutcome r = .done) : SessionsCounted (s.applyCommit r) := by
  simp only [State.applyCommit]
  split
  · exact h
  · rename_i hop
    have free := State.free_of_done (.inl hop) done
    refine h.setSlot nofun fun b hb => ?_
    obtain rfl := Option.some.inj hb
    exact ⟨(h.sessionsOn_of_free free).symm, Nat.zero_le _⟩
  · rename_i hop
    obtain ⟨-, -, max⟩ := State.alter_of_done hop done
    refine SessionsCounted.alignGraces (h.setSlot (fun empty => ?_) fun b hb => ?_) r r.target
    · rw [Option.map_eq_none_iff.mp empty]
      rfl
    · obtain ⟨a, ha, rfl⟩ := Option.map_eq_some_iff.mp hb
      obtain ⟨count, room⟩ := h.counted ha
      obtain ⟨same, below⟩ := s.alteredAccount_counted room fun hf => max hf a ha
      exact ⟨same.trans count, below⟩
  · rename_i hop
    exact h.setSlot (fun _ => State.free_of_done (.inr hop) done) nofun

theorem SessionsCounted.commitCompleted {s : State} (h : SessionsCounted s) :
    SessionsCounted s.commitCompleted := by
  simp only [State.commitCompleted]
  split
  · have freed := h.of_frame (s.frame_inService none)
    refine SessionsCounted.of_frame (SessionsCounted.give (SessionsCounted.of_frame
      (.ite (fun done => freed.applyCommit done) fun _ => freed) (State.frame_setStaging _ _)) _)
      (State.frame_startService _)
  · exact h
  · exact h

/-! ## Completed lookups (R55, R72 to R74) -/

/-- An accepted lookup has the slot of an account with room for a session (R72). -/
theorem State.slot_of_accept {s : State} {name : List Byte} {check : Word} {long : Bool}
    {oi : Option SlotNo} (h : s.lookupOutcome name check long = (.accept, oi)) :
    ∃ i a, oi = some i ∧ s.slot i = some a ∧ a.openSessions ≠ a.maxSessions := by
  have outcome := h
  simp only [State.lookupOutcome] at h
  split at h
  · cases h
  · split at h
    · cases h
    · rename_i i _ _ a ha
      obtain rfl : some i = oi := (Prod.mk.inj h).2
      exact ⟨i, a, rfl, ha, State.room_of_accept outcome ha⟩

/-- A line in CHECKING has no session, and the acceptance opens one on a slot with room. -/
theorem SessionsCounted.signedOnCall {s : State} (h : SessionsCounted s) (links : WellLinked s)
    {k : CtxNo} {n : LineNo} {i : SlotNo} {a : Account} (checking : (s.line n).state = .checking)
    (ha : s.slot i = some a) (room : a.openSessions ≠ a.maxSessions) :
    SessionsCounted (s.signedOnCall k n i) := by
  obtain ⟨-, -, -, session, -⟩ := links.line n
  have free : s.session n = none := by
    rw [checking] at session
    exact Option.not_isSome_iff_eq_none.mp fun opened => absurd (session.mp opened) (by decide)
  refine h.opened (x := s.opened i a) (b := a.opens) free ha room ?_ (fun m hm => ?_) ?_ rfl
    fun j hj => ?_
  · rw [State.session_signedOnCall k n ha, State.session_setSession_same]
  · rw [State.session_signedOnCall k n ha, s.session_setSession_other _ hm]
  · exact (s.slot_signedOnCall k n ha i).trans (s.slot_callAccepted k n ha)
  · exact (s.slot_signedOnCall k n ha j).trans (State.slot_updSlot_other _ _ hj)

theorem SessionsCounted.outcomeOwned {s : State} (h : SessionsCounted s) (o : LookupOutcome)
    (oi : Option SlotNo) : SessionsCounted (s.outcomeOwned o oi) := by
  have freed : SessionsCounted s.serviceFreed := h.of_frame (s.frame_inService none)
  simp only [State.outcomeOwned, State.lookupOwnEffect]
  split
  · exact freed.updSlot _
  · exact freed

theorem SessionsCounted.lookupCompleted {s : State} (h : SessionsCounted s) (links : WellLinked s) :
    SessionsCounted s.lookupCompleted := by
  cases hserv : s.directory.inService with
  | none => simpa only [State.lookupCompleted, hserv] using h
  | some q =>
    cases q with
    | commit r => simpa only [State.lookupCompleted, hserv] using h
    | lookup name check long k n =>
      cases ho : s.lookupOutcome name check long with | mk o oi =>
      rw [State.lookupCompleted_eq hserv ho]
      refine SessionsCounted.of_frame ?_ (State.frame_startService _)
      by_cases applies : s.completionApplies k n = true
      · cases o with
        | accept =>
          obtain ⟨i, a, rfl, ha, room⟩ := State.slot_of_accept ho
          obtain ⟨-, checking, -⟩ := State.completionApplies_iff.mp applies
          rw [State.applyOutcome_accept applies, State.acceptCall_lookupEnded]
          exact (h.signedOnCall links checking ha room).of_frame (State.frame_evaluateGrants _)
        | reject reason =>
          rw [State.applyOutcome_reject applies]
          exact ((h.outcomeOwned _ oi).of_frame (State.frame_endLookup _ k)).of_frame
            (State.frame_rejectAttempt _ k n reason)
      · rw [State.applyOutcome_released applies]
        exact h.outcomeOwned o oi

end Sys2Proof.Machine
end

section
/-!
PROOFS. Every step keeps each slot's open sessions equal to the sessions that name it (R77).
-/

namespace Sys2Proof.Machine

-- One proof after another: a default `by` argument waits for every earlier proof of the text.
set_option Elab.async false

/-! ## The taking of a cycle (R157, R158) -/

theorem SessionsCounted.processorRead {s : State} (h : SessionsCounted s) (o : Offset) :
    SessionsCounted (s.processorRead o).state := by
  simp only [State.processorRead]
  split
  case h_1 => exact h.of_frame s.frame_readAttention
  case h_7 => exact h.of_frame s.frame_readLatch
  case h_8 => exact h.of_frame s.frame_readCensus
  case h_20 => exact h.of_frame (s.frame_readStatus0 _)
  all_goals exact h

theorem SessionsCounted.scannerRead {s : State} (h : SessionsCounted s) (o : Offset) :
    SessionsCounted (s.scannerRead o).state := by
  simp only [State.scannerRead]
  split
  · split
    · exact h
    · exact h.of_frame (s.frame_readCommand _)
  all_goals exact h

/-- Of the processor's writes, commands, settings, the clock and the permits reach a session. -/
theorem SessionsCounted.processorWrite {s : State} (h : SessionsCounted s) (o : Offset) (w : Word) :
    SessionsCounted (s.processorWrite o w).state := by
  simp only [State.processorWrite]
  split
  · exact h.processorCommand _ w
  · exact h.of_frame (s.frame_writeAttention w)
  · exact h.of_frame (s.frame_setAttention _)
  · exact h.of_frame (s.frame_setAttention _)
  · exact h.of_frame (s.frame_writePlanStart w)
  · exact h.of_frame (s.frame_writePlanWord w)
  · exact h.of_frame (s.frame_writeTail w)
  · exact h.of_frame (s.frame_startCensus w)
  · exact h.of_frame (s.frame_writeCommit w)
  · exact h.writeClockMinute w
  · exact h.writeClockDay w
  · exact h.of_frame (s.frame_writeTariff _ _ w)
  · exact h.of_frame (s.frame_writeBandStart _ w)
  · exact h.of_frame (s.frame_writeWeekend w)
  · rename_i c _
    simp only [takenWrite, written]
    exact h.writePermit c w
  · exact h.writeSetting _ w
  · exact h.of_frame (s.frame_writeStaging _ w)
  · exact h.of_frame (s.frame_writePut _ w)
  case h_19 | h_20 | h_21 | h_22 | h_23 | h_24 | h_25 => exact h.of_frame (s.frame_writeArea o w)
  all_goals exact h.of_frame (s.frame_writeRefused .processor o)

/-- Of the scanner's writes, status words and receive entries reach a session. -/
theorem SessionsCounted.scannerWrite {s : State} (h : SessionsCounted s) (o : Offset) (w : Word) :
    SessionsCounted (s.scannerWrite o w).state := by
  simp only [State.scannerWrite]
  split
  · exact h.of_frame (s.frame_acknowledge _ w)
  · exact h.statusWritten _ w
  · exact h.of_frame (s.frame_sweepMarked w)
  · exact h.receive _ _ w
  · exact h.of_frame (s.frame_writeTake _ w)
  case h_6 | h_7 | h_8 | h_9 | h_10 => exact h.of_frame (s.frame_writeArea o w)
  all_goals exact h.of_frame (s.frame_writeRefused .scanner o)

theorem SessionsCounted.classify {s : State} (h : SessionsCounted s) (c : Cycle) :
    SessionsCounted (s.classify c).state := by
  simp only [State.classify]
  split
  · rename_i o _
    simp only [State.takeInside]
    split
    · exact h.processorRead o
    · exact h.scannerRead o
    · exact h.processorWrite o _
    · exact h.scannerWrite o _
  · simp only [State.takeOutside]
    split
    · exact h.of_frame (s.frame_writeMem _ _)
    · exact h

theorem SessionsCounted.takeCycle {s : State} (h : SessionsCounted s) (c : Cycle) :
    SessionsCounted (s.takeCycle c) := (h.classify c).of_frame (State.frame_setOwner _ _)

/-! ## The memory-side arbiter (R159, R160) -/

theorem SessionsCounted.arrive {s : State} (h : SessionsCounted s) (c : Cycle) :
    SessionsCounted (s.arrive c) := by
  have closed := (h.of_frame (s.frame_setBrdy c.master false)).of_frame (State.frame_closeWindowAt _ c)
  exact .ite (fun _ => h) fun _ =>
    .ite (fun _ => closed.takeCycle c) fun _ => closed.of_frame (State.frame_enqueueCycle _ c)

theorem SessionsCounted.releaseMemorySide {s : State} (h : SessionsCounted s) :
    SessionsCounted s.releaseMemorySide := by
  have freed := h.of_frame (s.frame_setOwner .free)
  simp only [State.releaseMemorySide]
  split
  · rename_i c rest _
    exact (freed.of_frame (State.frame_setWaiting _ rest)).takeCycle c
  · exact freed.of_frame (State.frame_startPosting _)

theorem State.frame_answerCycle (s : State) (c : Cycle) (data : Word) :
    SameBut [.brdy, .bd] s (s.answerCycle c data) := by
  have raised := (s.frame_setBrdy c.master true).mono (bs := [.brdy, .bd]) (by decide)
  exact SameBut.ite raised (raised.step (State.frame_setBd _ data))

theorem SessionsCounted.endCycle {s : State} (h : SessionsCounted s) : SessionsCounted s.endCycle := by
  simp only [State.endCycle]
  split
  · exact SessionsCounted.releaseMemorySide
      (.ite (fun _ => h) fun _ => h.of_frame (s.frame_answerCycle _ _))
  · exact h
  · exact h

theorem SessionsCounted.postingCompleted {s : State} (h : SessionsCounted s) :
    SessionsCounted s.postingCompleted :=
  .ite (fun _ => SessionsCounted.releaseMemorySide
    ((h.of_frame s.frame_recordPosted).of_frame (State.frame_windowAfterPosting _))) fun _ => h

/-! ## The resets (R84, R121) -/

theorem sessionsCounted_poweredOn (s : State) : SessionsCounted s.poweredOn :=
  sessionsCounted_reset.of_same (fun _ => rfl) fun _ => rfl

theorem SessionsCounted.released {s : State} (h : SessionsCounted s) (straps : BitVec 3) (p q : Bool) :
    SessionsCounted (s.released straps p q) := by
  have arrivals : ∀ (cs : List Cycle) (u : State), SessionsCounted u →
      SessionsCounted (cs.foldl State.arrive u) := by
    intro cs
    induction cs with
    | nil => exact fun _ hu => hu
    | cons c cs ih => exact fun u hu => ih _ (hu.arrive c)
  exact arrivals _ _ (h.of_same (fun _ => rfl) fun _ => rfl)

/-! ## Every step -/

theorem SessionsCounted.refreshAttn {s : State} (h : SessionsCounted s) :
    SessionsCounted s.refreshAttn := h.of_frame s.frame_refreshAttn

/-- An event keeps the count where its effect does. -/
theorem SessionsCounted.event {s t : State} {f : State → State}
    (kept : ∀ u, SessionsCounted u → SessionsCounted (f u)) (ht : event f s = .next t)
    (h : SessionsCounted s) : SessionsCounted t :=
  event_keeps ht h (kept s h) fun _ hu => hu.refreshAttn

/-- An event that touches neither a slot nor a session. -/
theorem SessionsCounted.frameEvent {s t : State} {f : State → State} {bs : List Block}
    (frame : ∀ u, SameBut bs u (f u)) (ht : Machine.event f s = .next t) (h : SessionsCounted s)
    (slots : .slots ∉ bs := by decide) (sessions : .sessions ∉ bs := by decide) :
    SessionsCounted t := .event (fun u hu => hu.of_frame (frame u) slots sessions) ht h

theorem SessionsCounted.readEvent {s t : State} {f : State → Word × State} {bs : List Block}
    (frame : ∀ u, SameBut bs u (f u).2) (ht : readEvent f s = .next t) (h : SessionsCounted s)
    (slots : .slots ∉ bs := by decide) (sessions : .sessions ∉ bs := by decide) :
    SessionsCounted t :=
  .event (fun u hu => (hu.of_frame (frame u) slots sessions).of_frame (State.frame_setBd _ _)) ht h

/-- Every command keeps the count: most touch neither a slot nor a session. -/
theorem SessionsCounted.exec {s t : State} {i : Instr} (h : SessionsCounted s) (links : WellLinked s)
    (ht : exec i s = .next t) : SessionsCounted t := by
  cases i with
  | statusWrite n w => exact .event (fun _ hu => hu.statusWritten n w) ht h
  | receiveEntry n j w => exact .event (fun _ hu => hu.receive n j w) ht h
  | commandWordRead n => exact .readEvent (fun u => u.frame_readCommand n) ht h
  | acknowledge n w => exact .frameEvent (fun u => u.frame_acknowledge n w) ht h
  | processorHangUp n => exact .event (fun _ hu => hu.processorCommand n hangUpCode) ht h
  | transmitPutWrite n w => exact .frameEvent (fun u => u.frame_writePut n w) ht h
  | transmitTakeWrite n w => exact .frameEvent (fun u => u.frame_writeTake n w) ht h
  | carrierDoubtExpiry n => exact .event (fun _ hu => hu.doubtExpired n) ht h
  | politeTimeExpiry n => exact .frameEvent (fun u => u.frame_updLine n _) ht h
  | clearingTimeExpiry n => exact .frameEvent (fun u => u.frame_updLine n _) ht h
  | modeLoad n w => exact .event (fun _ hu => hu.writeSetting n w) ht h
  | hangRequest n w => exact .event (fun _ hu => hu.writeSetting n w) ht h
  | sessionStatusRead n => exact .readEvent (fun u => u.frame_readStatus0 n) ht h
  | ringGoneExpiry n => exact .frameEvent (fun u => u.frame_ringGoneExpired n) ht h
  | answerTimerExpiry n => exact .frameEvent (fun u => u.frame_answerExpired n) ht h
  | signOnTimeExpiry k => exact .frameEvent (fun u => u.frame_signOnExpired k) ht h
  | requestServiceStart => exact .frameEvent (fun u => u.frame_startService) ht h
  | lookupCompletion =>
    exact event_keeps ht h (h.lookupCompleted links) fun _ hu => hu.refreshAttn
  | lockEnd j => exact .event (fun _ hu => hu.updSlot j Account.room_endLock) ht h
  | censusStart w => exact .frameEvent (fun u => u.frame_startCensus w) ht h
  | censusRead => exact .readEvent (fun u => u.frame_readCensus) ht h
  | stagingWrite j w => exact .frameEvent (fun u => u.frame_writeStaging j w) ht h
  | commitWrite w => exact .frameEvent (fun u => u.frame_writeCommit w) ht h
  | commitCompletion => exact .event (fun _ hu => hu.commitCompleted) ht h
  | shortTick => exact .frameEvent (fun u => u.frame_shortTicked) ht h
  | secondTick => exact .event (fun _ hu => hu.secondTicked) ht h
  | graceExpiry n => exact .event (fun _ hu => hu.graceExpired n) ht h
  | minuteTick => exact .event (fun _ hu => hu.minuteTicked) ht h
  | idleLimit n => exact .event (fun _ hu => hu.idleExpired n) ht h
  | clockMinuteWrite w => exact .event (fun _ hu => hu.writeClockMinute w) ht h
  | clockDayWrite w => exact .event (fun _ hu => hu.writeClockDay w) ht h
  | bandStartWrite b w => exact .frameEvent (fun u => u.frame_writeBandStart b w) ht h
  | weekendWrite w => exact .frameEvent (fun u => u.frame_writeWeekend w) ht h
  | tariffWrite b v w => exact .frameEvent (fun u => u.frame_writeTariff b v w) ht h
  | permitWrite c w => exact .event (fun _ hu => hu.writePermit c w) ht h
  | sweepMarker w => exact .frameEvent (fun u => u.frame_sweepMarked w) ht h
  | postingStart => exact .frameEvent (fun u => u.frame_startPosting) ht h
  | postingCompletion => exact .event (fun _ hu => hu.postingCompleted) ht h
  | windowTimeOut => exact .frameEvent (fun u => u.frame_windowTimedOut) ht h
  | tailWrite w => exact .frameEvent (fun u => u.frame_writeTail w) ht h
  | poll => exact .readEvent (fun u => u.frame_readAttention) ht h
  | nonSpecificDone | specificDone | rotateOnNonSpecificDone | rotateOnSpecificDone | setLowest
  | maskWrite | modeWrite => exact .frameEvent (fun u => u.frame_setAttention _) ht h
  | masterCycleArrival c =>
    cases hp : s.pins.porn with
    | true =>
      have running : Machine.exec (.masterCycleArrival c) s = Machine.event (fun s => s.arrive c) s :=
        if_pos hp
      exact .event (fun _ hu => hu.arrive c) (running.symm.trans ht) h
    | false =>
      have held : Machine.exec (.masterCycleArrival c) s = .next (s.present c) :=
        if_neg (by simp [hp])
      cases held.symm.trans ht
      exact h.of_frame (s.frame_present c)
  | masterCycleEnd => exact .event (fun _ hu => hu.endCycle) ht h
  | writeRefused m o => exact .frameEvent (fun u => u.frame_writeRefused m o) ht h
  | latchRead => exact .readEvent (fun u => u.frame_readLatch) ht h
  | planStart w => exact .frameEvent (fun u => u.frame_writePlanStart w) ht h
  | planWord w => exact .frameEvent (fun u => u.frame_writePlanWord w) ht h
  | powerOnReset =>
    cases ht
    exact sessionsCounted_poweredOn s
  | powerOnResetRelease straps p q =>
    cases ht
    exact .ite (fun _ => h) fun _ => (h.released straps p q).refreshAttn
  | busReset => exact .frameEvent (fun u => u.frame_busResetTaken) ht h

/-- Settles O60: an acceptance and a close move the slot's count with the session, a commit changes no
slot that sessions name but within its room, and every other change leaves what R77 counts. -/
theorem everyStepKeepsSessionsCounted : Obligations.EveryStepKeepsSessionsCounted := by
  intro s t links h ht
  simp only [step] at ht
  split at ht
  · rename_i c rest _
    have rest_links : WellLinked { s with pending := rest } := links
    have rest_counted : SessionsCounted { s with pending := rest } := h
    exact rest_counted.exec rest_links ht
  · cases ht
    exact h.of_frame s.frame_microsecond

end Sys2Proof.Machine
end

section
/-!
PROOFS. A bus reset (R71, R84, R99, R154, R164, R177).
-/

namespace Sys2Proof.Machine

-- One proof after another: a default `by` argument waits for every earlier proof of the text.
set_option Elab.async false

/-! ## What each block gives up -/

theorem Owner.isCycle_iff {o : Owner} : o.isCycle = true ↔ ∃ c a d, o = .cycle c a d := by
  cases o <;> simp [Owner.isCycle]

theorem Directory.commitInService_iff {d : Directory} :
    d.commitInService = true ↔ ∃ r, d.inService = some (.commit r) := by
  unfold Directory.commitInService
  split
  · rename_i q hq
    cases q <;> simp [Request.isCommit, hq]
  · simp [*]

theorem Directory.staging_busReset_idle {d : Directory}
    (h : ∀ r, d.inService ≠ some (.commit r)) : d.busReset.staging = Staging.reset :=
  if_neg fun hc => (Directory.commitInService_iff.mp hc).elim h

theorem Directory.staging_busReset_commit {d : Directory} {r : Staged}
    (h : d.inService = some (.commit r)) :
    d.busReset.staging = { d.staging with resetInService := true } :=
  if_pos (Directory.commitInService_iff.mpr ⟨r, h⟩)

/-- Settles O5: the effect block by block, ATTN after a reset controller, and the frame. -/
theorem busResetKeepsAllButFourBlocks : Obligations.BusResetKeepsAllButFourBlocks := by
  intro s hrun
  refine .of_event State.busResetTaken rfl hrun ⟨rfl, Attention.anyPollable_reset, rfl, rfl, rfl,
    Owner.isCycle_iff, rfl, rfl, rfl, rfl, rfl, Directory.staging_busReset_idle,
    fun r => Directory.staging_busReset_commit, ?_⟩
  exact s.frame_busResetTaken.step (State.frame_refreshAttn _)

end Sys2Proof.Machine
end

section
/-!
PROOFS. The searches of the slots: the judgement of a lookup and the census (R66, R72, R80 to R82).
-/

namespace Sys2Proof.Machine

-- One proof after another: a default `by` argument waits for every earlier proof of the text.
set_option Elab.async false

/-! ## The slot a search finds (R66, R82) -/

theorem searchSlots_eq_some {p : Nat → Option Account → Bool} {l : List (Option Account)} {i j : Nat}
    (hj : j < l.length) (own : p (i + j) l[j] = true)
    (before : ∀ m (hm : m < j), p (i + m) (l[m]'(hm.trans hj)) = false) :
    searchSlots p i l = some (i + j) := by
  induction l generalizing i j with
  | nil => exact absurd hj (Nat.not_lt_zero j)
  | cons a rest ih =>
    cases j with
    | zero => exact if_pos own
    | succ j =>
      have first : ¬ p i a = true := by simpa using before 0 (Nat.succ_pos j)
      rw [searchSlots, if_neg first, show i + (j + 1) = i + 1 + j by omega]
      refine ih (Nat.lt_of_succ_lt_succ hj) ?_ fun m hm => ?_
      · rw [show i + 1 + j = i + (j + 1) by omega]
        exact own
      · rw [show i + 1 + m = i + (m + 1) by omega]
        exact before (m + 1) (Nat.succ_lt_succ hm)

/-- The slot found is the one that meets the condition with no lower one that does. -/
theorem State.findSlot_eq_some {s : State} {p : Nat → Option Account → Bool} {i : SlotNo}
    (own : p i.val (s.slot i) = true) (before : ∀ j, j < i → p j.val (s.slot j) = false) :
    s.findSlot p = some i := by
  have hlen : s.directory.slots.toList.length = 2048 := by simp
  have found : searchSlots p 0 s.directory.slots.toList = some (0 + i.val) := by
    refine searchSlots_eq_some (by rw [hlen]; exact i.isLt) ?_ fun m hm => ?_
    · simpa [State.slot] using own
    · simpa [State.slot] using before ⟨m, hm.trans i.isLt⟩ hm
  simp only [State.findSlot, found, Nat.zero_add, i.isLt, dite_true]

/-! ## The outcome of a lookup (R66, R72) -/

theorem Lock.refuses_iff {l : Lock} : l.refuses = true ↔ l ≠ .none := by
  cases l <;> simp [Lock.refuses]

theorem State.slotNamed_eq (s : State) (name : List Byte) :
    s.slotNamed name = s.findSlot fun _ o => o.any fun a => a.name == name := by
  refine congrArg s.findSlot (funext fun _ => funext fun o => ?_)
  cases o <;> rfl

theorem named_iff {name : List Byte} {o : Option Account} :
    (o.any fun a => a.name == name) = true ↔ o.map (·.name) = some name := by
  cases o <;> simp

theorem State.slotNamed_none {s : State} {name : List Byte}
    (h : ∀ i, (s.slot i).map (·.name) ≠ some name) : s.slotNamed name = none := by
  rw [State.slotNamed_eq, State.findSlot_eq_none]
  exact fun i => Bool.eq_false_iff.mpr fun hi => h i (named_iff.mp hi)

theorem State.slotNamed_some {s : State} {name : List Byte} {i : SlotNo}
    (own : (s.slot i).map (·.name) = some name)
    (before : ∀ j, j < i → (s.slot j).map (·.name) ≠ some name) : s.slotNamed name = some i := by
  rw [State.slotNamed_eq]
  exact State.findSlot_eq_some (named_iff.mpr own) fun j hj =>
    Bool.eq_false_iff.mpr fun hj' => before j hj (named_iff.mp hj')

/-- Settles O34: the first slot of the name, and R72's checks on its account. -/
theorem aLookupIsJudgedInOrder : Obligations.ALookupIsJudgedInOrder := by
  intro s name check long
  refine ⟨fun h => ?_, fun i a ha hname before => ?_⟩
  · simp only [State.lookupOutcome, State.slotNamed_none h]
  · have own : (s.slot i).map (·.name) = some name := by rw [ha, ← hname]; rfl
    simp only [State.lookupOutcome, State.slotNamed_some own before, ha, State.judgeAccount,
      Lock.refuses_iff, State.maySignOn, Bool.not_eq_true']

/-! ## The census (R80 to R82) -/

/-- R80's table: when an account meets a census condition. -/
def Account.meets (a : Account) (c : CensusCondition) : Prop :=
  (c = .alarm → a.alarm = true) ∧ (c = .locked → a.lock ≠ .none) ∧ (c = .active → 0 < a.openSessions)

theorem meetsCondition_iff {c : CensusCondition} {o : Option Account} :
    meetsCondition c o = true ↔ ∃ a, o = some a ∧ a.meets c := by
  cases o with
  | none => simp [meetsCondition]
  | some a => cases c <;> simp [meetsCondition, Account.meets, Lock.refuses_iff]

/-- Slot i is at or above the cursor and meets the condition (R82). -/
def State.censusCandidate (s : State) (i : SlotNo) : Prop :=
  s.directory.census.cursor ≤ i.val ∧ ∃ a, s.slot i = some a ∧ a.meets s.directory.census.condition

theorem State.censusTest_iff {s : State} {i : SlotNo} :
    (decide (s.directory.census.cursor ≤ i.val)
      && meetsCondition s.directory.census.condition (s.slot i)) = true ↔ s.censusCandidate i := by
  rw [Bool.and_eq_true, decide_eq_true_iff, meetsCondition_iff]
  rfl

theorem State.censusNext_none {s : State} (h : ∀ i, ¬ s.censusCandidate i) : s.censusNext = none :=
  State.findSlot_eq_none.mpr fun i => Bool.eq_false_iff.mpr fun hi => h i (State.censusTest_iff.mp hi)

theorem State.censusNext_some {s : State} {i : SlotNo} (own : s.censusCandidate i)
    (before : ∀ j, j < i → ¬ s.censusCandidate j) : s.censusNext = some i :=
  State.findSlot_eq_some (State.censusTest_iff.mpr own) fun j hj =>
    Bool.eq_false_iff.mpr fun hj' => before j hj (State.censusTest_iff.mp hj')

/-- The condition of a census start by its code (R81, R172). -/
theorem censusCondition_eq (w : Word) : censusCondition w =
    if w.extractLsb' 0 2 = 0#2 then .alarm
    else if w.extractLsb' 0 2 = 1#2 then .locked
    else if w.extractLsb' 0 2 = 2#2 then .active else .any := by
  simp only [censusCondition, field]
  generalize w.extractLsb' 0 2 = code
  revert code
  decide

/-- The census word in R172's layout. -/
theorem censusWord_eq (i : SlotNo) {a : Account} (h : a.openSessions ≤ 4) :
    censusWord i a = 1#1 ++ BitVec.ofBool a.alarm ++ BitVec.ofNat 3 a.openSessions
      ++ BitVec.ofNat 11 i.val := by
  have hi : i.val < 2 ^ 11 := i.isLt
  have ho : a.openSessions < 2 ^ 3 := by omega
  have hone : BitVec.ofNat 16 1 = (1#1).setWidth 16 := rfl
  refine Eq.trans ?_ (setWidth_shift_zero _)
  simp only [censusWord, packWord_cons, packWord_nil, ofNat_setWidth hi, ofNat_setWidth ho, hone,
    ofNat_toNat_bool, BitVec.or_zero]
  simp only [setWidth_append_shift]

/-- A read of the census cell whose word and census are known. -/
theorem Completes.censusRead {s : State} {w : Word} {c : Census} (hrun : Running s)
    (h : s.readCensus = (w, s.setCensus c)) : Completes .censusRead s fun t =>
      t.pins.bd = w ∧ t.directory.census = c ∧ SameBut [.bd, .census] s t := by
  refine .of_readEvent State.readCensus rfl hrun ?_
  rw [h]
  exact ⟨rfl, rfl, (((s.frame_setCensus c).mono (by decide)).step (State.frame_setBd _ w)).step
    (State.frame_refreshAttn _)⟩

/-- Settles O37: the start, and a read by whether the census is ACTIVE and a candidate is left. -/
theorem theCensusWalksTheSlots : Obligations.TheCensusWalksTheSlots := by
  intro s hrun
  refine ⟨fun w => ?_, fun inactive => ?_, fun active none_left => ?_,
    fun i a active own before ha few => ?_⟩
  · refine .of_event (fun s => s.startCensus w) rfl hrun ⟨?_, ?_⟩
    · simp only [State.directory_refreshAttn, State.startCensus, censusCondition_eq]
    · exact (s.frame_startCensus w).step (State.frame_refreshAttn _)
  · refine .readUnchanged (f := State.readCensus) (w := 0#16) rfl hrun ?_
    simp only [State.readCensus, inactive, Bool.false_eq_true, if_false]
  · refine .censusRead hrun ?_
    simp only [State.readCensus, active, if_true, State.censusNext_none none_left]
  · rw [← censusWord_eq i few]
    refine .censusRead hrun ?_
    simp only [State.readCensus, active, if_true, State.censusNext_some own before, ha]

end Sys2Proof.Machine
end

section
/-!
PROOFS. The staging buffer: the writes it captures and the commit writes it judges (R85, R86, R89).
-/

namespace Sys2Proof.Machine

-- One proof after another: a default `by` argument waits for every earlier proof of the text.
set_option Elab.async false

/-! ## Captured words (R85, R86) -/

theorem Staged.words_capture (r : Staged) (i : Fin 16) (w : Word) (j : Fin 16) :
    (r.capture i w).words[j] = if j = i then w else r.words[j] := by
  simp [Staged.capture, Vector.getElem_set, Fin.ext_iff, eq_comm]

theorem Staged.fill_capture (r : Staged) (i : Fin 16) (w : Word) (j : Fin 16) :
    (r.capture i w).fill[j] = (decide (j = i) || r.fill[j]) := by
  by_cases h : j = i
  · simp [Staged.capture, h]
  · simp [Staged.capture, h, Fin.val_inj, Ne.symm h]

theorem Staged.words_empty (j : Fin 16) : Staged.empty.words[j] = 0#16 :=
  Vector.getElem_replicate j.isLt

theorem Staged.fill_empty (j : Fin 16) : Staged.empty.fill[j] = false :=
  Vector.getElem_replicate j.isLt

/-- The first word captured by an emptied buffer gives the end offset (R86). -/
theorem Staged.last_capture_empty (i : Fin 16) (w : Word) : (Staged.empty.capture i w).last = i := by
  show (if 0 < i then i else 0) = i
  split <;> omega

section
variable {s : State} {g : Staging} {i : Fin 16} {w : Word}

theorem Staging.write_fresh (h : g.state = .fresh) :
    g.write i w = { g with state := .filling, record := Staged.empty.capture i w } := by
  simp only [Staging.write, h]

theorem Staging.write_filling (h : g.state = .filling) :
    g.write i w = { g with record := g.record.capture i w } := by
  simp only [Staging.write, h]

theorem State.writeStaging_pending (h : s.directory.staging.state = .pending) :
    s.writeStaging i w = (s.writeArea (stagingOffset i) w).refuse .processor (stagingOffset i) :=
  if_pos h

theorem State.writeStaging_captured (h : s.directory.staging.state ≠ .pending) :
    s.writeStaging i w =
      (s.writeArea (stagingOffset i) w).setStaging (s.directory.staging.write i w) := if_neg h

/-- After the word is written, a staging write leaves memory alone (R86). -/
theorem State.frame_stagingWritten : SameBut [.staging, .latch, .queues]
    (s.writeArea (stagingOffset i) w) (s.writeStaging i w) :=
  SameBut.ite ((State.frame_refuse _ _ _).mono (by decide))
    ((State.frame_setStaging _ _).mono (by decide))

/-- A captured write changes the word in memory and the buffer only (R86). -/
theorem State.frame_writeStaging_captured (h : s.directory.staging.state ≠ .pending) :
    SameBut [.mem, .staging] s (s.writeStaging i w) := by
  rw [State.writeStaging_captured h]
  exact ((s.frame_writeArea _ w).mono (by decide)).step (State.frame_setStaging _ _)

end

/-- Settles O38: the word in memory first, then the buffer by its state. -/
theorem stagingWritesAreCaptured : Obligations.StagingWritesAreCaptured := by
  intro i w s hrun hm
  have written := (s.frame_stagingWritten (i := i) (w := w)).step (State.frame_refreshAttn _)
  refine .of_event (fun s => s.writeStaging i w) rfl hrun ⟨written.word_written hm,
    written.otherWords_written, fun fresh => ?_, fun filling => ?_, fun pending => ?_⟩
  · have captures : s.directory.staging.state ≠ .pending := by simp [fresh]
    have buffer : (s.writeStaging i w).refreshAttn.directory.staging =
        { s.directory.staging with state := .filling, record := Staged.empty.capture i w } := by
      rw [State.writeStaging_captured captures, Staging.write_fresh fresh]
      rfl
    refine ⟨by rw [buffer], by rw [buffer], ?_, fun j => ⟨?_, ?_⟩,
      (State.frame_writeStaging_captured captures).step (State.frame_refreshAttn _)⟩
    · rw [buffer, Staged.last_capture_empty]
    · rw [buffer, Staged.words_capture, Staged.words_empty]
    · rw [buffer, Staged.fill_capture, Staged.fill_empty, Bool.or_false]
  · have captures : s.directory.staging.state ≠ .pending := by simp [filling]
    have buffer : (s.writeStaging i w).refreshAttn.directory.staging =
        { s.directory.staging with record := s.directory.staging.record.capture i w } := by
      rw [State.writeStaging_captured captures, Staging.write_filling filling]
      rfl
    refine ⟨by rw [buffer, filling], by rw [buffer], by rw [buffer]; rfl, fun j => ⟨?_, ?_⟩,
      (State.frame_writeStaging_captured captures).step (State.frame_refreshAttn _)⟩
    · rw [buffer, Staged.words_capture]
    · rw [buffer, Staged.fill_capture]
  · simp only [State.writeStaging_pending pending]
    exact (State.latched_refuse _ .processor (stagingOffset i)).refreshAttn

/-! ## The authorization of a commit write (R89) -/

theorem commitEnd_eq_iff {w : Word} {e : Fin 16} :
    commitEnd w = e ↔ (w.extractLsb' 12 4).toNat = e.val := by
  have range : (w.extractLsb' 12 4).toNat < 16 := BitVec.isLt _
  simp only [commitEnd, field, Fin.ext_iff, Nat.mod_eq_of_lt range]

theorem slotField_val (w : Word) : (slotField w).val = (w.extractLsb' 0 11).toNat :=
  Nat.mod_eq_of_lt (BitVec.isLt (w.extractLsb' 0 11))

theorem slotField_eq_iff {v w : Word} :
    slotField v = slotField w ↔ v.extractLsb' 0 11 = w.extractLsb' 0 11 := by
  rw [Fin.ext_iff, slotField_val, slotField_val, BitVec.toNat_inj]

theorem Staged.gapless_iff {r : Staged} :
    r.gapless = true ↔ ∀ j : Fin 16, j ≤ r.last → r.fill[j] = true := by
  have run_filled : (r.fill.toList.take (r.last.val + 1)).all id = true ↔
      ∀ j : Fin 16, j ≤ r.last → r.fill[j] = true := by
    rw [List.all_eq_true, List.forall_mem_iff_getElem]
    constructor
    · intro h j hj
      have bound : j.val < (r.fill.toList.take (r.last.val + 1)).length := by simp; omega
      have filled := h j.val bound
      rwa [List.getElem_take, Vector.getElem_toList] at filled
    · intro h j hj
      have bound : j < r.last.val + 1 := List.length_take_le _ _ |>.trans_lt' hj
      rw [List.getElem_take, Vector.getElem_toList]
      exact h ⟨j, by omega⟩ (Nat.le_of_lt_succ bound)
  rw [Staged.gapless, Bool.and_eq_true, run_filled]
  refine and_iff_right_of_imp fun h => List.any_eq_true.mpr ⟨true, ?_, rfl⟩
  have first : r.fill[0] = true := h 0 (Fin.zero_le _)
  exact first ▸ Vector.mem_toList_iff.mpr (Vector.getElem_mem (by decide))

/-- A write that names the buffer's end offset and the target slot of its record (R89). -/
def Staged.authorizedBy (r : Staged) (w : Word) : Prop :=
  commitEnd w = r.last ∧ slotField w = r.target

/-- A record without gaps that ends at offset 10 or above (R89). -/
def Staged.whole (r : Staged) : Prop := r.gapless = true ∧ 10 ≤ r.last

theorem not_differs_of_authorized {r : Staged} {w : Word} (h : r.authorizedBy w) :
    ¬ (commitEnd w ≠ r.last ∨ slotField w ≠ r.target) :=
  fun differs => differs.elim (absurd h.1) (absurd h.2)

theorem Staged.authorizedBy_iff {r : Staged} {w : Word} : r.authorizedBy w ↔
    (w.extractLsb' 12 4).toNat = r.last.val ∧ w.extractLsb' 0 11 = (r.word 0).extractLsb' 0 11 :=
  and_congr commitEnd_eq_iff slotField_eq_iff

theorem Staged.whole_iff {r : Staged} : r.whole ↔
    (∀ j : Fin 16, j ≤ r.last → r.fill[j] = true) ∧ 10 ≤ r.last.val :=
  and_congr Staged.gapless_iff Iff.rfl

/-! ## The judgement of a commit write (R89) -/

/-- The staging buffer with its commit accepted, the request not yet submitted (R89). -/
def State.commitPending (s : State) : State :=
  s.setStaging { s.directory.staging with state := .pending, outcome := .pending }

section
variable {s : State} {w : Word}

theorem State.writeCommit_pending (h : s.directory.staging.state = .pending) :
    s.writeCommit w = s.refuse .processor commitOffset := if_pos h

theorem State.writeCommit_mismatch (h : s.directory.staging.state ≠ .pending)
    (differs : ¬ s.directory.staging.record.authorizedBy w) :
    s.writeCommit w = (s.setStaging { s.directory.staging with outcome := .mismatch }).give
      (.adminCommit .mismatch) :=
  (if_neg h).trans (if_pos (by simpa only [Staged.authorizedBy, not_and_or] using differs))

theorem State.writeCommit_gaps (h : s.directory.staging.state ≠ .pending)
    (authorized : s.directory.staging.record.authorizedBy w)
    (broken : ¬ s.directory.staging.record.whole) :
    s.writeCommit w = (s.setStaging { s.directory.staging with outcome := .gaps }).give
      (.adminCommit .gaps) :=
  (if_neg h).trans ((if_neg (not_differs_of_authorized authorized)).trans
    (if_pos (by simpa [Staged.whole, or_iff_not_imp_left] using broken)))

theorem State.writeCommit_accepted (h : s.directory.staging.state ≠ .pending)
    (authorized : s.directory.staging.record.authorizedBy w)
    (whole : s.directory.staging.record.whole) :
    s.writeCommit w = s.commitPending.submit (.commit s.directory.staging.record) :=
  (if_neg h).trans ((if_neg (not_differs_of_authorized authorized)).trans
    (if_neg (by simpa [Staged.whole] using whole)))

end

theorem State.frame_requested (s : State) (qs : List Request) :
    SameBut [.requests] s { s with directory := { s.directory with queue := qs } } := by
  intro b hb; cases b <;> first | exact absurd (by decide) hb | simp [Block.same]

/-- An event that reports an outcome of the buffer to the processor (R89). -/
theorem Completes.outcomeGiven {i : Instr} {s : State} {f : State → State} {g : Staging}
    {o : CommitOutcome} (hexec : exec i s = event f s) (hrun : Running s)
    (hf : f s = (s.setStaging g).give (.adminCommit o)) :
    Completes i s fun t => t.directory.staging = g ∧ GivenOnly (.adminCommit o) s t
      ∧ SameBut [.staging, .queues] s t := by
  refine .of_event f hexec hrun ?_
  rw [hf]
  exact ⟨rfl, State.givenOnly_give (s.setStaging g) _,
    (((s.frame_setStaging g).mono (by decide)).step (State.frame_give _ _)).step
      (State.frame_refreshAttn _)⟩

/-- Settles O39: each of R89's steps by the equation of its case. -/
theorem commitWritesAreJudged : Obligations.CommitWritesAreJudged := by
  intro w s hrun
  refine ⟨fun pending => .refused (f := fun s => s.writeCommit w) rfl hrun
      (State.writeCommit_pending pending),
    fun h differs => .outcomeGiven (f := fun s => s.writeCommit w) rfl hrun
      (State.writeCommit_mismatch h (mt Staged.authorizedBy_iff.mp differs)),
    fun h authorized broken => .outcomeGiven (f := fun s => s.writeCommit w) rfl hrun
      (State.writeCommit_gaps h (Staged.authorizedBy_iff.mpr authorized)
        (mt Staged.whole_iff.mp broken)),
    fun h authorized whole => ?_⟩
  have accepted := State.writeCommit_accepted h (Staged.authorizedBy_iff.mpr authorized)
    (Staged.whole_iff.mpr whole)
  have pending : SameBut [.staging, .requests] s s.commitPending :=
    (s.frame_setStaging _).mono (by decide)
  refine ⟨fun busy => .of_event (fun s => s.writeCommit w) rfl hrun ?_,
    fun idle empty => .of_event (fun s => s.writeCommit w) rfl hrun ?_⟩
  · rw [accepted, State.submit_waits (s := s.commitPending) _ busy]
    exact ⟨rfl, rfl, rfl,
      (pending.step (State.frame_requested _ _)).step (State.frame_refreshAttn _)⟩
  · rw [accepted, State.submit_served (s := s.commitPending) _ idle empty]
    exact ⟨rfl, rfl, rfl,
      (pending.step (State.frame_serving _ _ _)).step (State.frame_refreshAttn _)⟩

end Sys2Proof.Machine
end

section
/-!
PROOFS. The outcome of a commit: the fields by their tests and the checks in order (R90, R91, R174).
-/

namespace Sys2Proof.Machine

-- One proof after another: a default `by` argument waits for every earlier proof of the text.
set_option Elab.async false

/-! ## The name (R91) -/

/-- R91's name set: A to Z, 0 to 9, '-' and '.'. -/
def NameAllows (c : Byte) : Prop :=
  (0x41 ≤ c.toNat ∧ c.toNat ≤ 0x5A) ∨ (0x30 ≤ c.toNat ∧ c.toNat ≤ 0x39) ∨ c = 0x2D#8 ∨ c = 0x2E#8

theorem nameChar_iff {c : Byte} : nameChar c = true ↔ NameAllows c := by
  simp [nameChar, NameAllows, BitVec.le_def, or_assoc]

theorem NameAllows.ne_zero {c : Byte} (h : NameAllows c) : c ≠ 0#8 := by
  rintro rfl
  exact absurd h (by simp [NameAllows])

/-- The bytes before the first zero byte, where only zero bytes follow a run of others. -/
theorem takeWhile_eq_take {bytes : List Byte} {k : Nat} (used : ∀ c ∈ bytes.take k, c ≠ 0#8)
    (rest : ∀ c ∈ bytes.drop k, c = 0#8) : bytes.takeWhile (· != 0#8) = bytes.take k := by
  have ended : (bytes.drop k).takeWhile (· != 0#8) = [] :=
    List.takeWhile_eq_nil_iff.mpr fun h => by simp [rest _ (List.getElem_mem h)]
  calc bytes.takeWhile (· != 0#8)
      = (bytes.take k ++ bytes.drop k).takeWhile (· != 0#8) := by rw [List.take_append_drop]
    _ = bytes.take k ++ (bytes.drop k).takeWhile (· != 0#8) :=
        List.takeWhile_append_of_pos fun c hc => by simpa using used c hc
    _ = bytes.take k := by rw [ended, List.append_nil]

/-- R91's name test, by the length of the name. -/
theorem Staged.nameOk_iff {r : Staged} : r.nameOk = true ↔
    ∃ len : Fin 13, 0 < len.val ∧ (∀ c ∈ r.nameBytes.take len.val, NameAllows c)
      ∧ ∀ c ∈ r.nameBytes.drop len.val, c = 0#8 := by
  have twelve : r.nameBytes.length = 12 := rfl
  have parts : r.nameOk = true ↔
      0 < r.name.length ∧ (∀ c ∈ r.name, NameAllows c)
        ∧ ∀ c ∈ r.nameBytes.drop r.name.length, c = 0#8 := by
    simp [Staged.nameOk, List.length_pos_iff, nameChar_iff, and_assoc]
  rw [parts]
  constructor
  · rintro ⟨some_char, allowed, rest⟩
    have name_eq : r.name = r.nameBytes.take r.name.length :=
      List.prefix_iff_eq_take.mp (List.takeWhile_prefix _)
    have short : r.name.length ≤ 12 := twelve ▸ (List.takeWhile_sublist _).length_le
    exact ⟨⟨r.name.length, by omega⟩, some_char, fun c hc => allowed c (name_eq ▸ hc), rest⟩
  · rintro ⟨⟨len, short⟩, some_char, allowed, rest⟩
    have name_eq : r.name = r.nameBytes.take len :=
      takeWhile_eq_take (fun c hc => (allowed c hc).ne_zero) rest
    have length_eq : r.name.length = len := by rw [name_eq, List.length_take, twelve]; omega
    rw [length_eq]
    exact ⟨some_char, fun c hc => allowed c (name_eq ▸ hc), rest⟩

theorem State.nameTaken_eq (s : State) (i : SlotNo) (name : List Byte) :
    s.nameTaken i name =
      (s.findSlot fun j o => j != i.val && o.any fun a => a.name == name).isSome := by
  refine congrArg (fun p => (s.findSlot p).isSome) (funext fun _ => funext fun o => ?_)
  cases o <;> rfl

/-- R90's check 5. -/
theorem State.nameTaken_iff {s : State} {i : SlotNo} {name : List Byte} :
    s.nameTaken i name = true ↔ ∃ j, j ≠ i ∧ (s.slot j).map (·.name) = some name := by
  rw [State.nameTaken_eq, ← not_iff_not, Bool.not_eq_true, Option.isSome_eq_false_iff,
    Option.isNone_iff_eq_none, State.findSlot_eq_none, not_exists]
  refine forall_congr' fun j => ?_
  rw [← Bool.not_eq_true, Bool.and_eq_true, named_iff, bne_iff_ne, ne_eq, Fin.val_inj]

/-! ## The other fields (R91) -/

theorem Staged.cls_isSome_iff {r : Staged} :
    r.cls.isSome = true ↔ ((r.word 9).extractLsb' 0 3).toNat < 4 :=
  Option.isSome_ite

theorem Staged.maxSessionsOk_iff {r : Staged} : r.maxSessionsOk = true ↔
    1 ≤ ((r.word 9).extractLsb' 8 3).toNat ∧ ((r.word 9).extractLsb' 8 3).toNat ≤ 4 := by
  show r.maxSessionsOk = true ↔ 1 ≤ r.maxSessions ∧ r.maxSessions ≤ 4
  simp only [Staged.maxSessionsOk, Bool.and_eq_true, decide_eq_true_eq]

theorem Staged.loadFieldsOk_iff {r : Staged} : r.loadFieldsOk = true ↔
    r.nameOk = true ∧ r.cls.isSome = true ∧ r.maxSessionsOk = true ∧ r.number ≠ 0#16 := by
  simp [Staged.loadFieldsOk, and_assoc]

theorem Staged.alterFieldsOk_iff {r : Staged} : r.alterFieldsOk = true ↔
    (r.flagName = true → r.nameOk = true) ∧ (r.flagClass = true → r.cls.isSome = true)
      ∧ (r.flagMaxSess = true → r.maxSessionsOk = true)
      ∧ (r.flagAccount = true → r.number ≠ 0#16) := by
  simp only [Staged.alterFieldsOk, Bool.and_eq_true, Bool.or_eq_true, Bool.not_eq_true', bne_iff_ne,
    and_assoc, ← Bool.not_eq_true, ← imp_iff_not_or, ne_eq]

/-! ## The operation (R174) -/

section
variable {r : Staged}

theorem Staged.op_unassigned (h : (r.word 0).extractLsb' 12 2 = 3#2) : r.op = none := by
  simp [Staged.op, field, h]

theorem Staged.op_load (h : (r.word 0).extractLsb' 12 2 = 0#2) : r.op = some .load := by
  simp [Staged.op, field, h]

theorem Staged.op_alter (h : (r.word 0).extractLsb' 12 2 = 1#2) : r.op = some .alter := by
  simp [Staged.op, field, h]

theorem Staged.op_erase (h : (r.word 0).extractLsb' 12 2 = 2#2) : r.op = some .erase := by
  simp [Staged.op, field, h]

end

/-! ## The checks in order (R90) -/

theorem openIn_eq (o : Option Account) : openIn o = (o.map (·.openSessions)).getD 0 := by
  cases o <;> rfl

section
variable {s : State} {r : Staged}

theorem State.commitOutcome_unassigned (hop : r.op = none) : s.commitOutcome r = .badField := by
  simp only [State.commitOutcome, hop]

theorem State.commitOutcome_load (hop : r.op = some .load) : s.commitOutcome r =
    if 0 < openIn (s.slot r.target) then .slotBusy
    else if r.loadFieldsOk = false then .badField
    else if s.nameTaken r.target r.name = true then .nameTaken
    else .done := by
  simp only [State.commitOutcome, hop, Bool.not_eq_true']

theorem State.commitOutcome_alter (hop : r.op = some .alter) : s.commitOutcome r =
    if s.slot r.target = none then .slotEmpty
    else if r.alterFieldsOk = false then .badField
    else if r.flagName = true ∧ s.nameTaken r.target r.name = true then .nameTaken
    else if r.flagMaxSess = true ∧ r.maxSessions < openIn (s.slot r.target) then .slotBusy
    else .done := by
  simp only [State.commitOutcome, hop, Bool.not_eq_true', Option.isNone_iff_eq_none,
    Bool.and_eq_true, decide_eq_true_eq]

theorem State.commitOutcome_erase (hop : r.op = some .erase) : s.commitOutcome r =
    if s.slot r.target = none then .slotEmpty
    else if 0 < openIn (s.slot r.target) then .slotBusy
    else .done := by
  simp only [State.commitOutcome, hop, Option.isNone_iff_eq_none]

end

/-- Settles O40: the operation by its code, and each operation's checks in turn. -/
theorem aCommitIsJudgedInOrder : Obligations.ACommitIsJudgedInOrder := by
  intro s r
  have loadOk := (Staged.loadFieldsOk_iff (r := r)).trans (and_congr Staged.nameOk_iff
    (and_congr Staged.cls_isSome_iff (and_congr_left' Staged.maxSessionsOk_iff)))
  have alterOk := (Staged.alterFieldsOk_iff (r := r)).trans
    (and_congr (imp_congr_right fun _ => Staged.nameOk_iff)
      (and_congr (imp_congr_right fun _ => Staged.cls_isSome_iff)
        (and_congr_left' (imp_congr_right fun _ => Staged.maxSessionsOk_iff))))
  have taken := s.nameTaken_iff (i := r.target) (name := r.name)
  have opened := openIn_eq (s.slot r.target)
  refine ⟨slotField_val _, fun code => State.commitOutcome_unassigned (Staged.op_unassigned code),
    fun code => ?_, fun code => ?_, fun code => ?_⟩
  · rw [State.commitOutcome_load (Staged.op_load code), opened]
    refine ⟨fun busy => if_pos busy, fun free bad => ?_, fun free ok named => ?_,
      fun free ok unnamed => ?_⟩
    all_goals rw [if_neg (Nat.not_lt.mpr (Nat.le_zero.mpr free))]
    · exact if_pos (Bool.eq_false_iff.mpr (mt loadOk.mp bad))
    · rw [if_neg (by simp [loadOk.mpr ok]), if_pos (taken.mpr named)]
    · rw [if_neg (by simp [loadOk.mpr ok]), if_neg (mt taken.mp unnamed)]
  · rw [State.commitOutcome_alter (Staged.op_alter code), opened]
    refine ⟨fun empty => if_pos empty, fun used bad => ?_, fun used ok named name_taken => ?_,
      fun used ok name_free capped below => ?_, fun used ok name_free room => ?_⟩
    all_goals rw [if_neg used]
    · exact if_pos (Bool.eq_false_iff.mpr (mt alterOk.mp bad))
    all_goals rw [if_neg (by simp [alterOk.mpr ok])]
    · exact if_pos ⟨named, taken.mpr name_taken⟩
    all_goals rw [if_neg fun h => name_free.elim (fun kept => Bool.eq_false_iff.mp kept h.1)
      fun unnamed => unnamed (taken.mp h.2)]
    · exact if_pos ⟨capped, below⟩
    · exact if_neg fun h => room.elim (fun kept => Bool.eq_false_iff.mp kept h.1)
        fun fits => Nat.not_lt.mpr fits h.2
  · rw [State.commitOutcome_erase (Staged.op_erase code), opened]
    refine ⟨fun empty => if_pos empty, fun used busy => ?_, fun used free => ?_⟩
    · rw [if_neg used, if_pos busy]
    · rw [if_neg used, if_neg (Nat.not_lt.mpr (Nat.le_zero.mpr free))]

end Sys2Proof.Machine
end

section
/-!
SUPPORT. An altered account (R93), and the walk over the sessions that an ALTER brings into line, with the
warnings it gives (R94).
-/

namespace Sys2Proof.Machine

-- One proof after another: a default `by` argument waits for every earlier proof of the text.
set_option Elab.async false

/-! ## A walk over the sessions that gives warnings (R110, R112) -/

/-- A WARNING queue after one line's warnings were given, in the order listed (R142). -/
def warnLine (n : LineNo) (ks : List WarningKind) (q : List Notice) : List Notice :=
  ks.foldl (fun q k => queueNotice q (.warning n k)) q

theorem warnLines_eq_foldl (due : LineNo → List WarningKind) (q : List Notice) :
    warnLines due q = (List.finRange 64).foldl (fun q n => warnLine n (due n) q) q := rfl

theorem warnLines_nil (q : List Notice) : warnLines (fun _ => []) q = q := by
  simp [warnLines]

/-- A visit to line n leaves its session as `y` and gives it the warnings `ks`; of the other sessions and
queues, and of all else, it changes nothing. -/
structure Visited (n : LineNo) (y : Session) (ks : List WarningKind) (s t : State) : Prop where
  own : t.session n = some y
  others : OtherSessions n s t
  warned : t.attention.queue 5 = warnLine n ks (s.attention.queue 5)
  queues : OtherQueues 5 s t
  frame : SameBut [.sessions, .queues] s t

theorem Visited.refl {s : State} {n : LineNo} {x : Session} (h : s.session n = some x) :
    Visited n x [] s s :=
  ⟨h, fun _ _ => rfl, rfl, fun _ _ => rfl, SameBut.refl _ s⟩

section
variable {after : LineNo → Session → Session} {due : LineNo → Session → List WarningKind}

/-- A walk over the lines `ns` makes `after` of each one's session and gives it the warnings that are `due`,
line by line; of all else it changes nothing. -/
structure Walked (after : LineNo → Session → Session) (due : LineNo → Session → List WarningKind)
    (ns : List LineNo) (s t : State) : Prop where
  sessions : ∀ n, t.session n = if n ∈ ns then (s.session n).map (after n) else s.session n
  warned : t.attention.queue 5 =
    ns.foldl (fun q n => warnLine n ((s.session n).elim [] (due n)) q) (s.attention.queue 5)
  queues : OtherQueues 5 s t
  frame : SameBut [.sessions, .queues] s t

theorem Walked.nil (s : State) : Walked after due [] s s :=
  ⟨fun _ => rfl, rfl, fun _ _ => rfl, SameBut.refl _ s⟩

/-- A line without a session is passed by. -/
theorem Walked.passed {s : State} {n : LineNo} (h : s.session n = none) : Walked after due [n] s s := by
  refine ⟨fun m => ?_, ?_, fun _ _ => rfl, SameBut.refl _ s⟩
  · by_cases hm : m = n
    · simp [hm, h]
    · simp [hm]
  · simp [h, warnLine]

theorem Visited.walked {s t : State} {n : LineNo} {x : Session}
    (h : Visited n (after n x) (due n x) s t) (hx : s.session n = some x) :
    Walked after due [n] s t := by
  refine ⟨fun m => ?_, ?_, h.queues, h.frame⟩
  · by_cases hm : m = n
    · simp [hm, h.own, hx]
    · simp [hm, h.others m hm]
  · simpa [hx] using h.warned

/-- A line visited, and then lines that are not it. -/
theorem Walked.cons {s t u : State} {n : LineNo} {ns : List LineNo} (first : Walked after due [n] s t)
    (rest : Walked after due ns t u) (distinct : n ∉ ns) : Walked after due (n :: ns) s u := by
  have others : ∀ m ∈ ns, t.session m = s.session m := fun m hm =>
    (first.sessions m).trans (if_neg (by rw [List.mem_singleton]; rintro rfl; exact distinct hm))
  refine ⟨fun m => ?_, ?_, fun k hk => (rest.queues k hk).trans (first.queues k hk),
    first.frame.trans rest.frame⟩
  · by_cases hm : m ∈ ns
    · rw [rest.sessions, if_pos hm, others m hm, if_pos (List.mem_cons_of_mem _ hm)]
    · rw [rest.sessions, if_neg hm, first.sessions]
      simp [hm]
  · rw [rest.warned, first.warned]
    exact List.foldl_ext _ _ _ fun q m hm => by rw [others m hm]

/-- A walk over the sessions makes of each session what its visit makes of it, and gives the warnings of the
visits in order of line number (R110). -/
theorem State.forSessions_walked {s : State} {f : LineNo → Session → State → State}
    (visit : ∀ n x t, SameBut [.sessions, .queues] s t → t.session n = some x →
      Visited n (after n x) (due n x) t (f n x t)) :
    Walked after due (List.finRange 64) s (s.forSessions f) := by
  have walk : ∀ ns : List LineNo, ns.Nodup → ∀ t, SameBut [.sessions, .queues] s t →
      Walked after due ns t
        (ns.foldl (fun s n => match s.session n with | some x => f n x s | none => s) t) := by
    intro ns
    induction ns with
    | nil => exact fun _ t _ => .nil t
    | cons n ns ih =>
      intro distinct t ht
      obtain ⟨apart, distinct⟩ := List.nodup_cons.mp distinct
      rw [List.foldl_cons]
      cases hx : t.session n with
      | none => exact (Walked.passed hx).cons (ih distinct t ht) apart
      | some x =>
        have visited := visit n x t ht hx
        exact (visited.walked hx).cons (ih distinct _ (ht.trans visited.frame)) apart
  exact walk _ (List.nodup_finRange 64) s (SameBut.refl _ s)

end

/-! ## Reasons put in and taken out (R94, R113) -/

section
variable {s : State} {n : LineNo} {x : Session}

/-- The WARNING of a reason that is due and not in the grace's set yet (R113). -/
def GraceReason.warnings (g : GraceReason) (due : Bool) (grace : Option Grace) : List WarningKind :=
  if due && !grace.any (·.has g) then [g.warning] else []

/-- A WARNING joins class 5's queue or changes it, and no other queue (R141, R142). -/
theorem State.queues_warn (n : LineNo) (k : WarningKind) :
    (s.give (.warning n k)).attention.queue 5 = queueNotice (s.attention.queue 5) (.warning n k)
      ∧ OtherQueues 5 s (s.give (.warning n k)) := s.givenOnly_give (.warning n k)

theorem State.queues_addReason (g : GraceReason) (h : s.session n = some x) :
    (s.addReason n g).attention.queue 5 = warnLine n (g.warnings true x.grace) (s.attention.queue 5)
      ∧ OtherQueues 5 s (s.addReason n g) := by
  cases hg : x.grace with
  | none =>
    simp only [State.addReason, h, hg]
    exact State.queues_warn _ _
  | some c =>
    cases hc : c.has g
    · have new : g.warnings true (some c) = [g.warning] := by simp [GraceReason.warnings, hc]
      simp only [State.addReason, h, hg, hc, new, Bool.false_eq_true, if_false]
      exact State.queues_warn _ _
    · have known : g.warnings true (some c) = [] := by simp [GraceReason.warnings, hc]
      simp only [State.addReason, h, hg, hc, known, if_true]
      exact ⟨rfl, fun _ _ => rfl⟩

theorem State.queues_putReason (g : GraceReason) (due : Bool) (h : s.session n = some x) :
    (s.putReason n g due).attention.queue 5 = warnLine n (g.warnings due x.grace) (s.attention.queue 5)
      ∧ OtherQueues 5 s (s.putReason n g due) := by
  cases due
  · exact ⟨rfl, fun _ _ => rfl⟩
  · exact s.queues_addReason g h

/-- NO_BUDGET judged leaves it as it was whether BAND_BARRED is in the set. -/
theorem State.session_putReason_noBudget (due : Bool) (h : s.session n = some x) :
    ∃ y, (s.putReason n .noBudget due).session n = some y
      ∧ y.grace.any (·.has .bandBarred) = x.grace.any (·.has .bandBarred) := by
  refine ⟨_, s.session_putReason .noBudget due h, ?_⟩
  cases x.grace <;> cases due <;> rfl

end

/-! ## One session brought into line (R94) -/

/-- A session of the altered slot brought into line by the flags of the ALTER (R94). -/
def Session.aligned (x : Session) (seconds : Nat) (r : Staged) (gone barred : Bool) : Session :=
  { x with grace :=
      if r.flagClass then graceJudged seconds x.grace gone barred
      else if r.flagBudget then graceAfter seconds x.grace .noBudget gone
      else x.grace }

/-- The warnings of the reasons that the flags of the ALTER newly add (R94). -/
def Session.alignWarnings (x : Session) (r : Staged) (gone barred : Bool) : List WarningKind :=
  (if (r.flagClass || r.flagBudget) && gone && !x.grace.any (·.noBudget) then [.budgetGone] else [])
    ++ (if r.flagClass && barred && !x.grace.any (·.bandBarred) then [.bandBarred] else [])

section
variable {s : State} {n : LineNo} {x : Session} {r : Staged} {a : Account}

/-- With BUDGET flagged and CLASS not, NO_BUDGET alone is judged (R94). -/
theorem State.alignGrace_budget (unflagged : r.flagClass = false) :
    s.alignGrace n r a = (s.putReason n .noBudget a.budgetGone).endEmptyGrace n := by
  simp only [State.alignGrace, unflagged, Bool.false_eq_true, if_false]

theorem State.session_alignGrace_budget (h : s.session n = some x) (unflagged : r.flagClass = false) :
    (s.alignGrace n r a).session n = some { x with
      grace := graceAfter s.plan.graceSeconds x.grace .noBudget a.budgetGone } := by
  rw [State.alignGrace_budget unflagged, State.endEmptyGrace, State.session_updSession_same,
    s.session_putReason _ _ h]
  generalize a.budgetGone = gone
  cases hg : x.grace with
  | none => cases gone <;> rfl
  | some c =>
    cases gone
    · cases hb : c.bandBarred <;> simp [graceAfter, Grace.put, Grace.noReason, hb]
    · simp [graceAfter, Grace.put, Grace.noReason]

theorem State.session_alignGrace_aligned (h : s.session n = some x)
    (flagged : (r.flagClass || r.flagBudget) = true) : (s.alignGrace n r a).session n =
      some (x.aligned s.plan.graceSeconds r a.budgetGone (s.bandBars a)) := by
  cases hc : r.flagClass
  · have budget : r.flagBudget = true := by simpa [hc] using flagged
    simp only [s.session_alignGrace_budget h hc, Session.aligned, hc, budget, Bool.false_eq_true,
      if_false, if_true]
  · simp only [s.session_alignGrace r a h hc, Session.aligned, hc, if_true]

/-- What the band bars is read from the blocks that a walk over the sessions leaves. -/
theorem SameBut.bandBars {t : State} (h : SameBut [.sessions, .queues] s t) (b : Account) :
    t.bandBars b = s.bandBars b := by
  have band : t.meter.band = s.meter.band := h .band (by decide)
  obtain ⟨-, -, -, permits⟩ := h .tables (by decide)
  simp only [State.bandBars, State.mayHold, State.permit, band, permits]

theorem State.queues_alignGrace (h : s.session n = some x)
    (flagged : (r.flagClass || r.flagBudget) = true) :
    (s.alignGrace n r a).attention.queue 5 =
        warnLine n (x.alignWarnings r a.budgetGone (s.bandBars a)) (s.attention.queue 5)
      ∧ OtherQueues 5 s (s.alignGrace n r a) := by
  have warnings : x.alignWarnings r a.budgetGone (s.bandBars a) =
      GraceReason.noBudget.warnings a.budgetGone x.grace
        ++ if r.flagClass then GraceReason.bandBarred.warnings (s.bandBars a) x.grace else [] := by
    rw [Session.alignWarnings, flagged]
    cases r.flagClass <;> rfl
  obtain ⟨gone, queues⟩ := s.queues_putReason .noBudget a.budgetGone h
  cases hc : r.flagClass
  · rw [warnings, hc, State.alignGrace_budget hc, if_neg Bool.false_ne_true, List.append_nil]
    exact ⟨gone, queues⟩
  · obtain ⟨y, hy, same⟩ := s.session_putReason_noBudget a.budgetGone h
    obtain ⟨barred, queues'⟩ := State.queues_putReason .bandBarred (s.bandBars a) hy
    rw [warnings, hc]
    simp only [State.alignGrace, hc, if_true, (s.frame_putReason n _ _).bandBars]
    refine ⟨barred.trans ?_, fun k hk => (queues' k hk).trans (queues k hk)⟩
    rw [gone, GraceReason.warnings, same]
    exact (List.foldl_append ..).symm

theorem State.visited_alignGrace (h : s.session n = some x)
    (flagged : (r.flagClass || r.flagBudget) = true) :
    Visited n (x.aligned s.plan.graceSeconds r a.budgetGone (s.bandBars a))
      (x.alignWarnings r a.budgetGone (s.bandBars a)) s (s.alignGrace n r a) :=
  have ⟨warned, queues⟩ := s.queues_alignGrace h flagged
  ⟨s.session_alignGrace_aligned h flagged, s.otherSessions_alignGrace n r a, warned, queues,
    s.frame_alignGrace n r a⟩

end

/-! ## The sessions of the altered slot (R94) -/

/-- A session as an ALTER leaves it (R94). -/
def Session.afterAlter (x : Session) (seconds : Nat) (r : Staged) (gone barred : Bool) : Session :=
  if x.slot = r.target then x.aligned seconds r gone barred else x

/-- The warnings of a session at an ALTER (R94). -/
def Session.alterWarnings (x : Session) (r : Staged) (gone barred : Bool) : List WarningKind :=
  if x.slot = r.target then x.alignWarnings r gone barred else []

/-- The sessions of `s` brought into line with the altered account `b`, every reason newly added warned of
in order of line number, in `t` (R94). -/
structure GracesAligned (r : Staged) (b : Account) (s t : State) : Prop where
  sessions : ∀ n, t.session n = (s.session n).map fun x =>
    x.afterAlter s.plan.graceSeconds r b.budgetGone (s.bandBars b)
  warned : t.attention.queue 5 = warnLines
    (fun n => (s.session n).elim [] fun x => x.alterWarnings r b.budgetGone (s.bandBars b))
    (s.attention.queue 5)
  queues : OtherQueues 5 s t

section
variable {s : State} {r : Staged} {b : Account} {i : SlotNo}

/-- Without CLASS and BUDGET no grace is judged (R94). -/
theorem State.alignGraces_unflagged (hc : r.flagClass = false) (hb : r.flagBudget = false) :
    s.alignGraces r i = s :=
  if_neg (by simp [hc, hb])

theorem gracesAligned_unflagged (hc : r.flagClass = false) (hb : r.flagBudget = false) :
    GracesAligned r b s s := by
  have same : ∀ x : Session, ∀ gone barred,
      x.afterAlter s.plan.graceSeconds r gone barred = x := by
    simp [Session.afterAlter, Session.aligned, hc, hb]
  have silent : ∀ x : Session, ∀ gone barred, x.alterWarnings r gone barred = [] := by
    simp [Session.alterWarnings, Session.alignWarnings, hc, hb]
  refine ⟨fun n => by simp [same], ?_, fun _ _ => rfl⟩
  have quiet : ∀ o : Option Session, (o.elim [] fun x =>
      x.alterWarnings r b.budgetGone (s.bandBars b)) = [] := by
    intro o
    cases o <;> simp [silent]
  simp only [quiet, warnLines_nil]

/-- Graces aligned by a walk over every line. -/
theorem GracesAligned.of_walked {t : State} (h : Walked
    (fun _ x => x.afterAlter s.plan.graceSeconds r b.budgetGone (s.bandBars b))
    (fun _ x => x.alterWarnings r b.budgetGone (s.bandBars b)) (List.finRange 64) s t) :
    GracesAligned r b s t :=
  ⟨fun n => (h.sessions n).trans (if_pos (List.mem_finRange n)),
    h.warned.trans (warnLines_eq_foldl _ _).symm, h.queues⟩

theorem State.gracesAligned (hb : s.slot r.target = some b) :
    GracesAligned r b s (s.alignGraces r r.target) := by
  by_cases flagged : (r.flagClass || r.flagBudget) = true
  · rw [State.alignGraces, if_pos flagged]
    refine .of_walked (State.forSessions_walked fun n x t ht hx => ?_)
    have plan : t.plan = s.plan := ht .plan (by decide)
    simp only [ht.slot (by decide), hb, Session.afterAlter, Session.alterWarnings]
    split
    · rw [← ht.bandBars b, ← plan]
      exact t.visited_alignGrace hx flagged
    · exact .refl hx
  · obtain ⟨hc, hb⟩ := Bool.or_eq_false_iff.mp (Bool.eq_false_iff.mpr flagged)
    rw [State.alignGraces_unflagged hc hb]
    exact gracesAligned_unflagged hc hb

end

/-! ## The altered account (R93) -/

theorem Staged.cls_eq {r : Staged} (h : r.cls.isSome = true) :
    r.cls = some (classOfCode ((r.word 9).extractLsb' 0 3).toNat) :=
  if_pos (Staged.cls_isSome_iff.mp h)

section
variable (a : Account) (flag : Bool)

theorem Account.when_name (v : List Byte) : (a.when flag fun a => { a with name := v }) =
    { a with name := if flag then v else a.name } := by cases flag <;> rfl

theorem Account.when_check (v : Word) : (a.when flag fun a => { a with check := v }) =
    { a with check := if flag then v else a.check } := by cases flag <;> rfl

theorem Account.when_cls (c : Option AccountClass) :
    (a.when flag fun a => { a with cls := c.getD a.cls }) =
      { a with cls := if flag then c.getD a.cls else a.cls } := by cases flag <;> rfl

theorem Account.when_budget (v : Nat) (alarm : Bool) :
    (a.when flag fun a => { a with budget := v, basis := v, units := 0, alarm := alarm }) =
      { a with
        budget := if flag then v else a.budget
        basis := if flag then v else a.basis
        units := if flag then 0 else a.units
        alarm := if flag then alarm else a.alarm } := by cases flag <;> rfl

theorem Account.when_maxSessions (v : Nat) : (a.when flag fun a => { a with maxSessions := v }) =
    { a with maxSessions := if flag then v else a.maxSessions } := by cases flag <;> rfl

theorem Account.when_number (v : Word) : (a.when flag fun a => { a with number := v }) =
    { a with number := if flag then v else a.number } := by cases flag <;> rfl

theorem Account.when_unlock : (a.when flag fun a => { a with lock := .none, failures := 0 }) =
    { a with
      lock := if flag then .none else a.lock
      failures := if flag then 0 else a.failures } := by cases flag <;> rfl

theorem Account.when_held : (a.when flag fun a => { a with lock := .held }) =
    { a with lock := if flag then .held else a.lock } := by cases flag <;> rfl

end

/-- Every field of an altered account, by the flag that names it (R93). -/
theorem State.alteredAccount_eq {s : State} {r : Staged} {a : Account}
    (ok : r.alterFieldsOk = true) : s.alteredAccount r a =
      { name := if r.flagName then r.name else a.name
        number := if r.flagAccount then r.number else a.number
        cls := if r.flagClass then classOfCode ((r.word 9).extractLsb' 0 3).toNat else a.cls
        check := if r.flagCheck then r.check else a.check
        budget := if r.flagBudget then r.budget else a.budget
        basis := if r.flagBudget then r.budget else a.basis
        units := if r.flagBudget then 0 else a.units
        alarm := if r.flagBudget then s.alarmFor r.budget else a.alarm
        maxSessions := if r.flagMaxSess then r.maxSessions else a.maxSessions
        openSessions := a.openSessions
        failures := if r.flagUnlock then 0 else a.failures
        lock := if r.flagLock then .held else if r.flagUnlock then .none else a.lock } := by
  obtain ⟨-, assigned, -, -⟩ := Staged.alterFieldsOk_iff.mp ok
  have cls : ∀ c : AccountClass, (if r.flagClass = true then r.cls.getD c else c) =
      if r.flagClass = true then classOfCode ((r.word 9).extractLsb' 0 3).toNat else c := fun c =>
    ite_congr rfl (fun flagged => by rw [Staged.cls_eq (assigned flagged)]; rfl) fun _ => rfl
  simp only [State.alteredAccount, Account.when_name, Account.when_check, Account.when_cls,
    Account.when_budget, Account.when_maxSessions, Account.when_number, Account.when_unlock,
    Account.when_held, cls]

end Sys2Proof.Machine
end

section
/-!
PROOFS. The completion of a commit: its report, and the slot as LOAD, ALTER, ERASE and a refusal leave it (R92
to R96, R99).
-/

namespace Sys2Proof.Machine

-- One proof after another: a default `by` argument waits for every earlier proof of the text.
set_option Elab.async false

/-! ## The completion in its parts (R90, R96) -/

/-- The part after the effects of the commit `r` on the directory, its service ended (R92 to R95). -/
def State.commitApplied (s : State) (r : Staged) : State :=
  if s.commitOutcome r = .done then s.serviceFreed.applyCommit r else s.serviceFreed

/-- The commit's outcome in the staging buffer of `t` and in an ADMIN entry (R96 steps 1 to 3, R99). -/
def State.withOutcome (t : State) (o : CommitOutcome) : State :=
  (t.setStaging (t.directory.staging.completed o)).give (.adminCommit o)

theorem State.frame_withOutcome (t : State) (o : CommitOutcome) :
    SameBut [.staging, .queues] t (t.withOutcome o) :=
  ((t.frame_setStaging _).mono (by decide)).step (State.frame_give _ _)

theorem State.queue_withOutcome (t : State) (o : CommitOutcome) {j : ClassNo} (h : j ≠ 7) :
    (t.withOutcome o).attention.queue j = t.attention.queue j :=
  State.otherQueues_give (t.setStaging _) (.adminCommit o) j h

section
variable {s : State} {r : Staged}

theorem State.commitCompleted_eq (h : s.directory.inService = some (.commit r)) :
    s.commitCompleted = ((s.commitApplied r).withOutcome (s.commitOutcome r)).startService := by
  simp only [State.commitCompleted, h]
  rfl

theorem State.commitCompleted_idle (h : ∀ r, s.directory.inService ≠ some (.commit r)) :
    s.commitCompleted = s := by
  simp only [State.commitCompleted]
  split
  · rename_i record hserv
    exact absurd hserv (h record)
  · rfl
  · rfl

theorem State.commitApplied_refused (h : s.commitOutcome r ≠ .done) :
    s.commitApplied r = s.serviceFreed := if_neg h

theorem State.commitApplied_done (h : s.commitOutcome r = .done) :
    s.commitApplied r = s.serviceFreed.applyCommit r := if_pos h

theorem State.commitApplied_load (h : s.commitOutcome r = .done) (hop : r.op = some .load) :
    s.commitApplied r =
      s.serviceFreed.setSlot r.target (some (s.serviceFreed.loadedAccount r)) := by
  rw [State.commitApplied_done h, State.applyCommit, hop]

theorem State.commitApplied_erase (h : s.commitOutcome r = .done) (hop : r.op = some .erase) :
    s.commitApplied r = s.serviceFreed.setSlot r.target none := by
  rw [State.commitApplied_done h, State.applyCommit, hop]

theorem State.commitApplied_alter (h : s.commitOutcome r = .done) (hop : r.op = some .alter) :
    s.commitApplied r =
      (s.serviceFreed.updSlot r.target (s.alteredAccount r)).alignGraces r r.target := by
  rw [State.commitApplied_done h, State.applyCommit, hop]
  rfl

theorem State.frame_commitApplied :
    SameBut [.slots, .sessions, .queues, .requests] s (s.commitApplied r) :=
  SameBut.ite (((s.frame_inService none).mono (by decide)).step (State.frame_applyCommit _ r))
    ((s.frame_inService none).mono (by decide))

theorem State.requests_commitApplied : (s.commitApplied r).directory.queue = s.directory.queue
    ∧ (s.commitApplied r).directory.inService = none := by
  by_cases h : s.commitOutcome r = .done
  · rw [State.commitApplied_done h]
    exact State.frame_applyCommit s.serviceFreed r .requests (by decide)
  · rw [State.commitApplied_refused h]
    exact ⟨rfl, rfl⟩

end

/-! ## The report (R96, R99) -/

/-- A commit's completion reported in `t`: its service is over, the buffer has the outcome, and of the
attention queues but class 5's only ADMIN(COMMIT, outcome) has changed one (R96, R99). -/
def CommitReported (o : CommitOutcome) (s t : State) : Prop :=
  t.directory.queue = s.directory.queue ∧ t.directory.inService = none
    ∧ t.directory.staging = (if s.directory.staging.resetInService then
        { state := .fresh, record := Staged.empty, outcome := o, resetInService := false }
      else { s.directory.staging with
        state := if o = .done then .fresh else .filling, outcome := o })
    ∧ t.attention.queue 7 = queueNotice (s.attention.queue 7) (.adminCommit o)
    ∧ ∀ j, j ≠ 5 → j ≠ 7 → t.attention.queue j = s.attention.queue j

/-- The report, of a commit whose effects give no notice but warnings. -/
theorem State.commitReported {s : State} {r : Staged} (o : CommitOutcome)
    (quiet : OtherQueues 5 s (s.commitApplied r)) :
    CommitReported o s ((s.commitApplied r).withOutcome o) := by
  obtain ⟨queue, service⟩ := s.requests_commitApplied (r := r)
  have staging : (s.commitApplied r).directory.staging = s.directory.staging :=
    s.frame_commitApplied .staging (by decide)
  refine ⟨queue, service, ?_, ?_, fun j h5 h7 => ?_⟩
  · show (s.commitApplied r).directory.staging.completed o = _
    rw [staging]
    rfl
  · rw [← quiet 7 (by decide)]
    exact State.queue_give _ (.adminCommit o)
  · exact (State.queue_withOutcome _ o h7).trans (quiet j h5)

/-- A commit's completion, from the state `v` that its effects leave to the start of the next service. -/
theorem Completes.commitCompleted {s v : State} {r : Staged} {o : CommitOutcome}
    {post : State → Prop} (hrun : Running s) (h : s.directory.inService = some (.commit r))
    (ho : s.commitOutcome r = o) (applied : s.commitApplied r = v) (quiet : OtherQueues 5 s v)
    (hp : ∀ t, CommitReported o s (v.withOutcome o) → NextServed (v.withOutcome o) t → post t) :
    Completes .commitCompletion s post := by
  subst ho applied
  refine .of_event State.commitCompleted rfl hrun ?_
  rw [State.commitCompleted_eq h]
  exact hp _ (State.commitReported _ quiet)
    (State.nextServed (s.requests_commitApplied (r := r)).2)

/-! ## The slot a LOAD leaves (R92) -/

theorem State.loadedAccount_eq {s : State} {r : Staged} (ok : r.loadFieldsOk = true) :
    s.loadedAccount r =
      { name := r.name, number := r.number,
        cls := classOfCode ((r.word 9).extractLsb' 0 3).toNat, check := r.check,
        budget := r.budget, basis := r.budget, units := 0, alarm := s.alarmFor r.budget,
        maxSessions := r.maxSessions, openSessions := 0, failures := 0, lock := .none } := by
  obtain ⟨-, assigned, -, -⟩ := Staged.loadFieldsOk_iff.mp ok
  rw [State.loadedAccount, Staged.cls_eq assigned]
  rfl

/-! ## The slot an ALTER leaves (R93, R94) -/

section
variable {s : State} {r : Staged} {a b : Account}

theorem State.slot_altered (ha : s.slot r.target = some a) (hb : s.alteredAccount r a = b) :
    (s.serviceFreed.updSlot r.target (s.alteredAccount r)).slot r.target = some b := by
  rw [State.slot_updSlot_same, ← hb]
  exact congrArg (Option.map _) ha

theorem State.slot_alterApplied (h : s.commitOutcome r = .done) (hop : r.op = some .alter)
    (ha : s.slot r.target = some a) (hb : s.alteredAccount r a = b) :
    (s.commitApplied r).slot r.target = some b ∧ OtherSlots r.target s (s.commitApplied r) := by
  rw [State.commitApplied_alter h hop]
  have aligned := State.frame_alignGraces (s.serviceFreed.updSlot r.target (s.alteredAccount r)) r
    r.target
  exact ⟨(aligned.slot (by decide) _).trans (State.slot_altered ha hb), fun j hj =>
    (aligned.slot (by decide) j).trans (State.slot_updSlot_other s.serviceFreed _ hj)⟩

theorem State.gracesAligned_alterApplied (h : s.commitOutcome r = .done) (hop : r.op = some .alter)
    (ha : s.slot r.target = some a) (hb : s.alteredAccount r a = b) :
    GracesAligned r b s (s.commitApplied r) := by
  rw [State.commitApplied_alter h hop]
  obtain ⟨sessions, warned, queues⟩ := State.gracesAligned (State.slot_altered ha hb)
  exact ⟨sessions, warned, queues⟩

theorem State.queues_alterApplied_unflagged (h : s.commitOutcome r = .done) (hop : r.op = some .alter)
    (hc : r.flagClass = false) (hb : r.flagBudget = false) :
    (s.commitApplied r).attention.queue 5 = s.attention.queue 5 := by
  rw [State.commitApplied_alter h hop, State.alignGraces_unflagged hc hb]
  rfl

end

/-- Settles O41: the outcome's operation gives the slot and the sessions; the report and the next service
are common to all. -/
theorem aCommitCompletionWritesTheSlot : Obligations.ACommitCompletionWritesTheSlot := by
  intro r s hrun
  have freed := fun bs sub => (s.frame_inService none).mono (bs := bs) sub
  refine ⟨fun h => ⟨fun refused => ?_, fun done hop => ?_, fun done hop => ?_,
    fun a done hop ha => ?_⟩,
    fun idle => .unchanged (f := State.commitCompleted) rfl hrun (State.commitCompleted_idle idle)⟩
  · refine .commitCompleted hrun h rfl (State.commitApplied_refused refused) (fun _ _ => rfl)
      fun t reported served => ⟨_, reported, State.queue_withOutcome _ _ (by decide), ?_, served⟩
    exact (freed _ (by decide)).step (State.frame_withOutcome _ _)
  · obtain ⟨ok, -⟩ := State.load_of_done hop done
    refine .commitCompleted hrun h rfl (State.commitApplied_load done hop) (fun _ _ => rfl)
      fun t reported served => ⟨_, reported, State.queue_withOutcome _ _ (by decide), ?_,
        fun j hj => State.slot_setSlot_other s.serviceFreed _ hj, ?_, served⟩
    · exact (State.slot_setSlot_same s.serviceFreed _ _).trans
        (congrArg some (State.loadedAccount_eq ok))
    · exact ((freed _ (by decide)).step (State.frame_setSlot _ _ _)).step
        (State.frame_withOutcome _ _)
  · refine .commitCompleted hrun h rfl (State.commitApplied_erase done hop) (fun _ _ => rfl)
      fun t reported served => ⟨_, reported, State.queue_withOutcome _ _ (by decide),
        State.slot_setSlot_same s.serviceFreed _ _,
        fun j hj => State.slot_setSlot_other s.serviceFreed _ hj, ?_, served⟩
    exact ((freed _ (by decide)).step (State.frame_setSlot _ _ _)).step (State.frame_withOutcome _ _)
  · obtain ⟨ok, -, -⟩ := State.alter_of_done hop done
    have altered := State.alteredAccount_eq (s := s) (a := a) ok
    obtain ⟨own, others⟩ := State.slot_alterApplied done hop ha altered
    obtain ⟨sessions, warned, quiet⟩ := State.gracesAligned_alterApplied done hop ha altered
    have warnings := State.queue_withOutcome (s.commitApplied r) (s.commitOutcome r)
      (j := 5) (by decide)
    refine .commitCompleted hrun h rfl rfl quiet fun t reported served =>
      ⟨_, reported, own, others, sessions, (warnings.trans warned).trans ?_, fun hc hb => ?_, ?_,
        served⟩
    · refine congrArg (warnLines · _) (funext fun n => ?_)
      cases s.session n <;> rfl
    · exact warnings.trans (State.queues_alterApplied_unflagged done hop hc hb)
    · exact (s.frame_commitApplied.mono (by decide)).step (State.frame_withOutcome _ _)

end Sys2Proof.Machine
end

section
/-!
SUPPORT. The accounts of the journal: the calls that claim credit, one relation between two states that says
the accounts go over from the first to the second, and what the elementary changes make of them (R122, R126,
R127).
-/

namespace Sys2Proof.Machine

-- One proof after another: a default `by` argument waits for every earlier proof of the text.
set_option Elab.async false

/-! ## Calls and claims (R28, R108, R127) -/

/-- A line in a call that claims credit: in a dialogue, which holds a context, or in a session (R127). -/
def LineState.inCall (x : LineState) : Bool := x.inDialogue || x == .signedOn

theorem LineState.inCall_of_inDialogue {x : LineState} (h : x.inDialogue = true) : x.inCall = true := by
  simp [LineState.inCall, h]

theorem LineState.not_inCall_iff {x : LineState} :
    x.inCall = false ↔ x.inDialogue = false ∧ x ≠ .signedOn := by
  simp [LineState.inCall]

/-- The lines in a call. -/
def State.calls (s : State) : Nat :=
  ((List.finRange 64).filter fun n => (s.line n).state.inCall).length

theorem length_filter_finRange {k : Nat} (p : Fin k → Bool) :
    ((List.finRange k).filter p).length = (Finset.univ.filter fun i => p i = true).card := by
  rw [← List.toFinset_card_of_nodup ((List.nodup_finRange k).filter _)]
  congr 1
  ext i
  simp

/-- Held contexts and lines in a dialogue are as many: each points at the other (R28). -/
theorem WellLinked.heldContexts {s : State} (links : WellLinked s) :
    s.heldContexts = ((List.finRange 64).filter fun n => (s.line n).state.inDialogue).length := by
  rw [State.heldContexts, length_filter_finRange, length_filter_finRange]
  have pointed := fun n k => (links.line n).2.1 k
  have dialogue := fun n => (links.line n).2.2.1
  refine Finset.card_bij (fun k hk => ((s.ctx k).holder.get (Finset.mem_filter.mp hk).2))
    (fun k hk => ?_) (fun j hj k hk e => ?_) fun n hn => ?_
  · have holds := (pointed _ k).mpr (Option.some_get (Finset.mem_filter.mp hk).2).symm
    refine Finset.mem_filter.mpr ⟨Finset.mem_univ _, ?_⟩
    rw [← dialogue, holds]
    rfl
  · have first := (pointed _ j).mpr (Option.some_get (Finset.mem_filter.mp hj).2).symm
    have second := (pointed _ k).mpr (Option.some_get (Finset.mem_filter.mp hk).2).symm
    rw [e, second] at first
    exact (Option.some.inj first).symm
  · have inside := (Finset.mem_filter.mp hn).2
    rw [← dialogue] at inside
    obtain ⟨k, hk⟩ := Option.isSome_iff_exists.mp inside
    have held := (pointed n k).mp hk
    exact ⟨k, Finset.mem_filter.mpr ⟨Finset.mem_univ _, by rw [held]; rfl⟩, by simp [held]⟩

/-- Open sessions and lines SIGNED_ON are as many (R108). -/
theorem WellLinked.openSessions {s : State} (links : WellLinked s) :
    s.openSessions = ((List.finRange 64).filter fun n => (s.line n).state == .signedOn).length := by
  refine congrArg List.length (List.filter_congr fun n _ => ?_)
  rw [Bool.eq_iff_iff, beq_iff_eq]
  exact (links.line n).2.2.2.1

/-- Elements that meet one of two tests, no element both, are as many as meet each. -/
theorem length_filter_or {α : Type} {p q : α → Bool} (apart : ∀ a, p a = true → q a = false)
    (l : List α) :
    (l.filter fun a => p a || q a).length = (l.filter p).length + (l.filter q).length := by
  induction l with
  | nil => rfl
  | cons a l ih =>
    have := apart a
    cases hp : p a <;> cases hq : q a <;> simp_all <;> omega

/-- The claims of a well linked part beside its records are its calls. -/
theorem WellLinked.claims {s : State} (links : WellLinked s) :
    s.claims = s.journal.visible + s.journal.queue.length + s.calls := by
  have apart : ∀ n : LineNo, (s.line n).state.inDialogue = true →
      ((s.line n).state == .signedOn) = false := by
    intro n
    cases (s.line n).state <;> decide
  rw [State.claims, links.heldContexts, links.openSessions, State.calls]
  simp only [LineState.inCall]
  rw [length_filter_or apart]
  omega

/-- The capacity is 0 from a plan start to plan word 3 (R123). -/
def CapacityUnset (s : State) : Prop :=
  ∀ k, s.plan.state = .planning k → k ≤ 3 → s.journal.capacity = 0

theorem CreditBounded.claimed {s : State} (h : CreditBounded s) : s.claims ≤ s.journal.capacity := h.1
theorem CreditBounded.unset {s : State} (h : CreditBounded s) : CapacityUnset s := h.2

theorem RecordsPending.idle {s : State} (h : RecordsPending s) {n : LineNo}
    (pending : (s.line n).recordPending = true) : (s.line n).state.inCall = false :=
  LineState.not_inCall_iff.mpr (h.2.2 n pending)

theorem RecordsPending.clear {s : State} (h : RecordsPending s) {n : LineNo}
    (call : (s.line n).state.inCall = true) : (s.line n).recordPending = false := by
  cases pending : (s.line n).recordPending
  · rfl
  · rw [h.idle pending] at call
    cases call

/-! ## The accounts go over -/

/-- The claims and the pending records go over from the first state to the second. -/
structure ClaimsKept (s t : State) : Prop where
  links : WellLinked s → WellLinked t
  credit : WellLinked s → CreditBounded s → CreditBounded t
  records : WellLinked s → RecordsPending s → RecordsPending t

/-- The ring is placed, and its capacity unset while the plan has it so (R122, R123). -/
def RingSound (s : State) : Prop := CapacityUnset s ∧ RingPlaced s

/-- The accounts of the journal go over from the first state to the second. -/
structure AccountsKept (s t : State) : Prop extends ClaimsKept s t where
  ring : RingSound s → RingSound t

theorem ClaimsKept.refl (s : State) : ClaimsKept s s := ⟨id, fun _ => id, fun _ => id⟩

theorem ClaimsKept.trans {s t u : State} (h : ClaimsKept s t) (h' : ClaimsKept t u) : ClaimsKept s u :=
  ⟨h'.links ∘ h.links, fun hs => h'.credit (h.links hs) ∘ h.credit hs,
    fun hs => h'.records (h.links hs) ∘ h.records hs⟩

theorem AccountsKept.refl (s : State) : AccountsKept s s := ⟨.refl s, id⟩

theorem AccountsKept.trans {s t u : State} (h : AccountsKept s t) (h' : AccountsKept t u) :
    AccountsKept s u := ⟨h.toClaimsKept.trans h'.toClaimsKept, h'.ring ∘ h.ring⟩

theorem AccountsKept.ite {s t u : State} {c : Prop} [Decidable c] (h : c → AccountsKept s t)
    (h' : ¬ c → AccountsKept s u) : AccountsKept s (if c then t else u) := by
  split
  · exact h ‹_›
  · exact h' ‹_›

/-- A walk over the sessions keeps the accounts where every visit does. -/
theorem AccountsKept.forSessions {s t : State} {f : LineNo → Session → State → State}
    (h : AccountsKept s t) (visit : ∀ n x u, u.session n = some x → AccountsKept u (f n x u)) :
    AccountsKept s (t.forSessions f) :=
  State.forSessions_induction (P := AccountsKept s) h fun n x u hu hx => hu.trans (visit n x u hx)

/-! ## Changes that bring no call and no record about -/

/-- From the first state to the second no call begins, no record is built or posted, and the plan goes on
as it was. -/
structure Calm (s t : State) : Prop where
  ring : Block.ring.same s t
  queue : t.journal.queue = s.journal.queue
  plan : t.plan.state = s.plan.state
  pending : ∀ n, (t.line n).recordPending = (s.line n).recordPending
  calls : ∀ n, (t.line n).state.inCall = true → (s.line n).state.inCall = true

theorem Calm.of_frame {bs : List Block} {s t : State} (frame : SameBut bs s t)
    (lines : .lines ∉ bs := by decide) (ring : .ring ∉ bs := by decide)
    (posting : .posting ∉ bs := by decide) (plan : .plan ∉ bs := by decide) : Calm s t where
  ring := frame _ ring
  queue := (frame .posting posting).1
  plan := congrArg Plan.state (frame _ plan)
  pending n := by rw [frame.line lines]
  calls n := by rw [frame.line lines]; exact id

theorem Calm.refl (s : State) : Calm s s := .of_frame (SameBut.refl [] s)

theorem Calm.trans {s t u : State} (h : Calm s t) (h' : Calm t u) : Calm s u where
  ring := by
    obtain ⟨c, hd, tl, v, l⟩ := h.ring
    obtain ⟨c', hd', tl', v', l'⟩ := h'.ring
    exact ⟨c'.trans c, hd'.trans hd, tl'.trans tl, v'.trans v, l'.trans l⟩
  queue := h'.queue.trans h.queue
  plan := h'.plan.trans h.plan
  pending n := (h'.pending n).trans (h.pending n)
  calls n := h.calls n ∘ h'.calls n

theorem Calm.ite {s t u : State} {c : Prop} [Decidable c] (h : c → Calm s t) (h' : ¬ c → Calm s u) :
    Calm s (if c then t else u) := by
  split
  · exact h ‹_›
  · exact h' ‹_›

/-- A line record in which no call has begun and whose journal record is pending as before. -/
structure LineRecord.Calmer (old r : LineRecord) : Prop where
  pending : r.recordPending = old.recordPending
  calls : r.state.inCall = true → old.state.inCall = true

theorem LineRecord.Calmer.of_eq {old r : LineRecord} (state : r.state = old.state := by rfl)
    (pending : r.recordPending = old.recordPending := by rfl) : old.Calmer r :=
  ⟨pending, by rw [state]; exact id⟩

/-- A record of a line in no call. -/
theorem LineRecord.Calmer.of_rest {old r : LineRecord} (rest : r.state.inCall = false := by rfl)
    (pending : r.recordPending = old.recordPending := by rfl) : old.Calmer r :=
  ⟨pending, by rw [rest]; exact nofun⟩

/-- A record of a line that was in a call. -/
theorem LineRecord.Calmer.of_call {old r : LineRecord} (call : old.state.inCall = true)
    (pending : r.recordPending = old.recordPending := by rfl) : old.Calmer r :=
  ⟨pending, fun _ => call⟩

/-- One line record replaced by a calmer one. -/
theorem Calm.of_lines {bs : List Block} {s t : State} {n : LineNo} {r : LineRecord}
    (frame : SameBut bs s t) (lines : t.lines = s.lines.set n r) (calmer : (s.line n).Calmer r)
    (ring : .ring ∉ bs := by decide) (posting : .posting ∉ bs := by decide)
    (plan : .plan ∉ bs := by decide) : Calm s t := by
  have others := State.otherLines_of_lines lines
  have own := State.line_of_lines lines
  refine ⟨frame _ ring, (frame .posting posting).1, congrArg Plan.state (frame _ plan), fun m => ?_,
    fun m => ?_⟩ <;> by_cases hm : m = n
  · rw [hm, own, calmer.pending]
  · rw [others m hm]
  · rw [hm, own]
    exact calmer.calls
  · rw [others m hm]
    exact id

theorem Calm.updLine {s : State} {n : LineNo} {f : LineRecord → LineRecord}
    (calmer : (s.line n).Calmer (f (s.line n))) : Calm s (s.updLine n f) :=
  .of_lines (s.frame_updLine n f) rfl calmer

theorem Calm.calls_le {s t : State} (h : Calm s t) : t.calls ≤ s.calls :=
  (List.monotone_filter_right _ h.calls).length_le

theorem CapacityUnset.of_calm {s t : State} (h : Calm s t) (hs : CapacityUnset s) : CapacityUnset t := by
  obtain ⟨capacity, -⟩ := h.ring
  intro k hk hle
  rw [capacity]
  exact hs k (h.plan ▸ hk) hle

theorem RingPlaced.of_same {s t : State} (h : Block.ring.same s t) (hs : RingPlaced s) :
    RingPlaced t := by
  obtain ⟨capacity, head, tail, visible, -⟩ := h
  simpa only [RingPlaced, capacity, head, tail, visible] using hs

theorem CreditBounded.of_calm {s t : State} (h : Calm s t) (links : WellLinked s)
    (links' : WellLinked t) (hs : CreditBounded s) : CreditBounded t := by
  obtain ⟨capacity, -, -, visible, -⟩ := h.ring
  refine ⟨?_, hs.unset.of_calm h⟩
  have claimed := hs.claimed
  have fewer := h.calls_le
  rw [links.claims] at claimed
  rw [links'.claims, capacity, visible, h.queue]
  omega

theorem RecordsPending.of_calm {s t : State} (h : Calm s t) (hs : RecordsPending s) :
    RecordsPending t := by
  refine ⟨h.queue ▸ hs.1, fun n => ?_, fun n pending => ?_⟩
  · rw [h.pending, h.queue]
    exact hs.2.1 n
  · refine LineState.not_inCall_iff.mp (Bool.eq_false_iff.mpr fun call => ?_)
    rw [h.pending] at pending
    have idle := hs.idle pending
    rw [h.calls n call] at idle
    cases idle

/-- A calm change between well linked states keeps the accounts. -/
theorem AccountsKept.of_calm {s t : State} (links : WellLinked s → WellLinked t) (h : Calm s t) :
    AccountsKept s t where
  links := links
  credit hs := .of_calm h hs (links hs)
  records _ := .of_calm h
  ring hs := ⟨hs.1.of_calm h, hs.2.of_same h.ring⟩

theorem Keeps.calm {s t : State} (keeps : Keeps s t) (h : Calm s t) : AccountsKept s t :=
  .of_calm keeps.links h

/-- A change outside the lines, the ring, the posting queue and the plan. -/
theorem Keeps.accounts {bs : List Block} {s t : State} (keeps : Keeps s t) (frame : SameBut bs s t)
    (lines : .lines ∉ bs := by decide) (ring : .ring ∉ bs := by decide)
    (posting : .posting ∉ bs := by decide) (plan : .plan ∉ bs := by decide) : AccountsKept s t :=
  keeps.calm (.of_frame frame lines ring posting plan)

theorem WellLinked.of_frame {bs : List Block} {s t : State} (frame : SameBut bs s t) (h : WellLinked s)
    (lines : .lines ∉ bs := by decide) (queue : .answerQueue ∉ bs := by decide)
    (contexts : .contexts ∉ bs := by decide) (sessions : .sessions ∉ bs := by decide) :
    WellLinked t := by
  have same : t.answerQueue = s.answerQueue := frame _ queue
  exact h.of_same same fun m => .of_eq (frame.line lines m) (by rw [same]) (frame.session sessions m)
    fun k => by rw [frame.ctx contexts]

/-- A change of what neither the links nor the accounts are read from. -/
theorem AccountsKept.of_frame {bs : List Block} {s t : State} (frame : SameBut bs s t)
    (lines : .lines ∉ bs := by decide) (queue : .answerQueue ∉ bs := by decide)
    (contexts : .contexts ∉ bs := by decide) (sessions : .sessions ∉ bs := by decide)
    (ring : .ring ∉ bs := by decide) (posting : .posting ∉ bs := by decide)
    (plan : .plan ∉ bs := by decide) : AccountsKept s t :=
  .of_calm (fun h => h.of_frame frame lines queue contexts sessions)
    (.of_frame frame lines ring posting plan)

theorem AccountsKept.give (s : State) (e : Notice) : AccountsKept s (s.give e) :=
  .of_frame (s.frame_give e)

/-- A line record replaced by one of the same call, its record pending as before. -/
theorem AccountsKept.updLine {s : State} {n : LineNo} {f : LineRecord → LineRecord}
    (same : (s.line n).SameCall (f (s.line n)))
    (pending : (f (s.line n)).recordPending = (s.line n).recordPending := by rfl) :
    AccountsKept s (s.updLine n f) := by
  refine (Keeps.updLine same).calm (.updLine ⟨pending, fun call => ?_⟩)
  simpa only [LineState.inCall, Bool.or_eq_true, beq_iff_eq, same.dialogue, same.signedOn] using call

/-- A context changed under its holder. -/
theorem AccountsKept.updCtx {s : State} {k : CtxNo} {f : Context → Context}
    (holder : (f (s.ctx k)).holder = (s.ctx k).holder) : AccountsKept s (s.updCtx k f) := by
  refine .of_calm (fun h => h.of_same rfl fun m => .of_eq rfl .rfl rfl fun j => ?_)
    (.of_frame (s.frame_updCtx k f))
  by_cases hj : j = k
  · rw [hj, s.ctx_updCtx_same, holder]
  · rw [s.ctx_updCtx_other f hj]

/-- A session record changed, if there is one. -/
theorem AccountsKept.updSession (s : State) (n : LineNo) (f : Session → Session) :
    AccountsKept s (s.updSession n f) := by
  refine .of_calm (fun h => h.of_same rfl fun m => ⟨.rfl, rfl, rfl, rfl, ?_, fun _ => .rfl⟩)
    (.of_frame (s.frame_updSession n f))
  by_cases hm : m = n
  · rw [hm, s.session_updSession_same, Option.isSome_map]
  · rw [s.session_updSession_other f hm]

/-- An ill linked part has no claims and no records to keep. -/
theorem AccountsKept.of_unlinked {bs : List Block} {s t : State} (frame : SameBut bs s t)
    (h : ¬ WellLinked s) (ring : .ring ∉ bs := by decide) (plan : .plan ∉ bs := by decide) :
    AccountsKept s t where
  links hs := absurd hs h
  credit hs := absurd hs h
  records hs := absurd hs h
  ring hs := by
    have same : Block.ring.same s t := frame _ ring
    have plan : t.plan = s.plan := frame _ plan
    exact ⟨by simpa only [CapacityUnset, plan, same.1] using hs.1, hs.2.of_same same⟩

/-! ## Grants (R29 to R31) -/

theorem AccountsKept.grant {s : State} {k : CtxNo} {n : LineNo} (h : s.nextGrant = some (k, n)) :
    AccountsKept s (s.grant k n) := by
  obtain ⟨-, credit, free, eligible⟩ := State.nextGrant_some h
  have frame := s.frame_grant k n
  have ring : Block.ring.same s (s.grant k n) := frame _ (by decide)
  have plan : (s.grant k n).plan = s.plan := frame .plan (by decide)
  obtain ⟨queue, -⟩ := frame .posting (by decide)
  have unset : CapacityUnset s → CapacityUnset (s.grant k n) := by
    simpa only [CapacityUnset, plan, ring.1] using id
  refine ⟨⟨(Keeps.grant h).links, fun _ hs => ⟨?_, unset hs.unset⟩, fun _ hs => ?_⟩,
    fun hs => ⟨unset hs.1, hs.2.of_same ring⟩⟩
  · have held := State.heldContexts_grant (n := n) (State.holder_of_freeContext free)
    have opened : (s.grant k n).openSessions = s.openSessions := by
      simp only [State.openSessions, frame.session (by decide)]
    obtain ⟨capacity, -, -, visible, -⟩ := ring
    simp only [State.credit, State.claims] at credit ⊢
    rw [held, opened, capacity, visible, queue]
    omega
  · have clear : (s.line n).recordPending = false := by
      have test := List.find?_some (p := fun m => !(s.line m).recordPending) eligible
      simpa using test
    have others := State.otherLines_of_lines (s.lines_grant k n)
    have own := State.line_of_lines (s.lines_grant k n)
    have pending : ∀ m, ((s.grant k n).line m).recordPending = (s.line m).recordPending := by
      intro m
      by_cases hm : m = n
      · rw [hm, own]
        rfl
      · rw [others m hm]
    refine ⟨queue ▸ hs.1, fun m => ?_, fun m hp => ?_⟩
    · rw [pending, queue]
      exact hs.2.1 m
    · rw [pending] at hp
      have hm : m ≠ n := by
        rintro rfl
        rw [clear] at hp
        cases hp
      rw [others m hm]
      exact hs.2.2 m hp

theorem AccountsKept.evaluateGrants (s : State) : AccountsKept s s.evaluateGrants :=
  State.evaluateGrants_induction (P := AccountsKept s) (.refl s)
    fun _ _ _ h hg => h.trans (.grant hg)

/-! ## The close of a session (R118) -/

/-- A closed session gives its claim to its record. -/
theorem AccountsKept.closed {s t : State} {n : LineNo} {x : Session} {reason : CloseReason}
    {hang : Option Manner} (links : WellLinked s → WellLinked t) (hx : s.session n = some x)
    (h : SessionClosed n x reason hang s t) : AccountsKept s t := by
  obtain ⟨queue, -, own, others, -, -, -, ended, sessions, frame⟩ := h
  have ring : Block.ring.same s t := frame _ (by decide)
  have plan : t.plan = s.plan := frame .plan (by decide)
  have unset : CapacityUnset s → CapacityUnset t := by
    simpa only [CapacityUnset, plan, ring.1] using id
  refine ⟨⟨links, fun _ hs => ⟨?_, unset hs.unset⟩, fun linked hs => ?_⟩,
    fun hs => ⟨unset hs.1, hs.2.of_same ring⟩⟩
  · have fewer : s.openSessions = t.openSessions + 1 :=
      length_filter_flip (k := n) (by simp [ended]) (by simp [hx])
        (fun m hm => by rw [sessions m hm]) (List.nodup_finRange 64) (List.mem_finRange n)
    have held : t.heldContexts = s.heldContexts := by
      simp only [State.heldContexts, frame.ctx (by decide)]
    have claimed := hs.claimed
    obtain ⟨capacity, -, -, visible, -⟩ := ring
    simp only [State.claims] at claimed ⊢
    rw [held, capacity, visible, queue, List.length_append, List.length_singleton]
    omega
  · have on : (s.line n).state = .signedOn := (linked.line n).2.2.2.1.mp (by rw [hx]; rfl)
    have none_queued : n ∉ s.journal.queue.map JournalRecord.line := fun mem => by
      have clear := hs.clear (n := n) (by rw [on]; rfl)
      rw [(hs.2.1 n).mpr mem] at clear
      cases clear
    have records : t.journal.queue.map JournalRecord.line =
        s.journal.queue.map JournalRecord.line ++ [n] := by
      rw [queue, List.map_append]
      rfl
    refine ⟨?_, fun m => ?_, fun m hp => ?_⟩
    · rw [records]
      exact hs.1.append (List.nodup_singleton n) (List.disjoint_singleton.mpr none_queued)
    · rw [records, List.mem_append, List.mem_singleton]
      by_cases hm : m = n
      · simp [hm, own]
      · rw [others m hm, hs.2.1 m]
        simp [hm]
    · by_cases hm : m = n
      · rw [hm, own]
        exact ⟨rfl, by simp [LineRecord.cleared]⟩
      · rw [others m hm] at hp ⊢
        exact hs.2.2 m hp

end Sys2Proof.Machine
end

section
/-!
SUPPORT. The close of a session, said once, and what it makes of the journal's accounts (R118).
-/

namespace Sys2Proof.Machine

-- One proof after another: a default `by` argument waits for every earlier proof of the text.
set_option Elab.async false

/-! ## The close of a session (R118) -/

theorem State.closeSession_none {s : State} {n : LineNo} (h : s.session n = none) (reason : CloseReason)
    (hang : Option Manner) : s.closeSession n reason hang = s := by
  simp only [State.closeSession, h]

/-- A close up to the HANG_UP its cause names (R118 steps 1 to 5). -/
def State.sessionEnded (s : State) (n : LineNo) (x : Session) (reason : CloseReason) : State :=
  ((((s.queueRecord (s.buildRecord n x reason)).updLine n fun r =>
    { r with recordPending := true }).updSlot x.slot fun a =>
      { a with openSessions := a.openSessions - 1 }).give (.closed n reason)).setSession n none

/-- The HANG_UP a close names, if any (R118 step 6). -/
def State.hungUp (s : State) (n : LineNo) (hang : Option Manner) : State :=
  match hang with
  | some m => s.hangUp n m
  | none => s

theorem State.closeSession_some {s : State} {n : LineNo} {x : Session} (h : s.session n = some x)
    (reason : CloseReason) (hang : Option Manner) : s.closeSession n reason hang =
      ((s.sessionEnded n x reason).hungUp n hang).enterClearing n := by
  simp only [State.closeSession, h]
  rfl

theorem State.lines_closeSession {s : State} {n : LineNo} {x : Session} (h : s.session n = some x)
    (reason : CloseReason) (hang : Option Manner) : (s.closeSession n reason hang).lines =
      s.lines.set n { (s.line n).cleared (match hang with
        | some m => requestHangUp s.plan.politeLimit (s.line n).forced m
        | none => (s.line n).forced) with recordPending := true } := by
  rw [State.closeSession_some h]
  cases hang <;>
    simp [State.hungUp, State.sessionEnded, State.line, LineRecord.toClearing, LineRecord.cleared,
      Config.clearingTicks]

/-- A close does to the journal, the line, the slot, the session and class 0's queue what R118 says. -/
theorem State.sessionClosed {s : State} {n : LineNo} {x : Session} (h : s.session n = some x)
    (reason : CloseReason) (hang : Option Manner) :
    SessionClosed n x reason hang s (s.closeSession n reason hang) := by
  have lines := State.lines_closeSession h reason hang
  have rest : ∀ {P : State → Prop}, (∀ r u, P u → P (u.setLine n r)) →
      P (s.sessionEnded n x reason) → P (s.closeSession n reason hang) := by
    intro P kept hp
    rw [State.closeSession_some h]
    cases hang
    · exact kept _ _ hp
    · exact kept _ _ (kept _ _ hp)
  refine ⟨?_, ?_, State.line_of_lines lines, State.otherLines_of_lines lines, ?_, ?_, ?_, ?_, ?_,
    s.frame_closeSession n reason hang⟩
  · exact rest (P := fun t => t.journal.queue = _) (fun _ _ => id) rfl
  · exact rest (P := fun t => t.journal.sequence = _) (fun _ _ => id) rfl
  · refine rest (P := fun t => t.slot x.slot = _) (fun _ _ => id) ?_
    exact State.slot_updSlot_same _ x.slot _
  · refine rest (P := OtherSlots x.slot s) (fun _ _ => id) fun i hi => ?_
    exact State.slot_updSlot_other _ _ hi
  · refine rest (P := GivenOnly (.closed n reason) s) (fun _ _ => id) ?_
    exact s.givenOnly_give (.closed n reason)
  · refine rest (P := fun t => t.session n = none) (fun _ _ => id) ?_
    exact State.session_setSession_same _ n none
  · refine rest (P := OtherSessions n s) (fun _ _ => id) fun m hm => ?_
    exact State.session_setSession_other _ none hm

theorem AccountsKept.closeSession (s : State) (n : LineNo) (reason : CloseReason)
    (hang : Option Manner) : AccountsKept s (s.closeSession n reason hang) := by
  cases hx : s.session n with
  | none =>
    rw [State.closeSession_none hx]
    exact .refl s
  | some x => exact .closed (Keeps.closeSession s n reason hang).links hx (State.sessionClosed hx _ _)

end Sys2Proof.Machine
end

section
/-!
SUPPORT. What the lines, the dialogue and the directory make of the journal's accounts: a call begins with a
grant and its claim ends with a record, or with the call (R127).
-/

namespace Sys2Proof.Machine

-- One proof after another: a default `by` argument waits for every earlier proof of the text.
set_option Elab.async false

/-! ## The dialogue clear (R36) -/

theorem AccountsKept.clearDialogue {s : State} {n : LineNo} (reason : RejectReason)
    (hang : Option Manner) (h : (s.line n).state.inDialogue = true) :
    AccountsKept s (s.clearDialogue n reason hang) := by
  by_cases hs : WellLinked s
  · obtain ⟨k, hk⟩ := LineState.inDialogue_of_context hs h
    have frame := s.frame_dialogueEnded n reason hang
    have lines := State.lines_dialogueEnded reason hang hk
    have released : Keeps s (s.dialogueEnded n reason hang) := by
      refine Keeps.released frame lines (State.contexts_dialogueEnded reason hang hk)
        rfl rfl rfl rfl (fun hc _ => ?_) hk
      obtain ⟨attempts, noise, name, password, -⟩ := hc
      exact ⟨attempts, noise, name, password, by simp⟩
    exact (released.calm (.of_lines frame lines .of_rest)).trans (.evaluateGrants _)
  · exact .of_unlinked (s.frame_clearDialogue n reason hang) hs

/-! ## Clearing and the states of a mode (R2, R16, R17) -/

theorem LineRecord.calmer_toMode (r : LineRecord) (m : LineMode) : r.Calmer (r.toMode m) := by
  cases m <;> exact .of_rest

theorem LineRecord.Calmer.endClearing {old r : LineRecord} (h : old.Calmer r) :
    old.Calmer r.endClearing := by
  simp only [LineRecord.endClearing]
  split
  · rename_i c _
    cases c.modeAfter <;> exact .of_rest rfl h.pending
  · exact h

theorem AccountsKept.testClearing (s : State) (n : LineNo) : AccountsKept s (s.testClearing n) := by
  refine (Keeps.testClearing s n).calm (.updLine ?_)
  split
  · exact .endClearing .of_eq
  · exact .of_eq

theorem AccountsKept.clearingExpired (s : State) (n : LineNo) :
    AccountsKept s (s.updLine n LineRecord.clearingExpired) := by
  refine (Keeps.clearingExpired s n).calm (.updLine ?_)
  simp only [LineRecord.clearingExpired]
  split
  · split
    · exact .endClearing .of_eq
    · exact .of_eq
  · exact .of_eq

/-! ## Status words (R4 to R8, R33) -/

theorem AccountsKept.writeArea (s : State) (o : Offset) (v : Word) : AccountsKept s (s.writeArea o v) :=
  .of_frame (s.frame_writeArea o v)

theorem Calm.leaveQueue (s : State) (n : LineNo) : Calm s (s.leaveQueue n) :=
  .of_lines (s.frame_leaveQueue n) (s.lines_leaveQueue n) .of_eq

theorem Calm.unsolicited (s : State) (n : LineNo) : Calm s (s.unsolicited n) :=
  (((Calm.leaveQueue s n).trans (.updLine .of_eq)).trans (.updLine .of_rest)).trans
    (.of_frame (State.frame_give _ _))

theorem Calm.answered {s : State} {n : LineNo} (call : (s.line n).state.inCall = true) :
    Calm s (s.answered n) := by
  have moved : ∀ u : State, u.line n = s.line n → Calm u (((u.withdrawAnswer n).updLine n
      fun r => { r with answer := none, state := .name }).give (.promptConnect n)) := by
    intro u hu
    refine ((Calm.updLine .of_eq).trans (.updLine (.of_call ?_))).trans (.of_frame (State.frame_give _ _))
    simpa [hu] using call
  simp only [State.answered]
  split
  · exact (Calm.of_frame (State.frame_updCtx _ _ _)).trans (moved _ rfl)
  · exact moved s rfl

theorem Calm.setSpeed (s : State) (n : LineNo) (w : Word) : Calm s (s.setSpeed n w) := .updLine .of_eq

theorem Calm.glitch (s : State) (n : LineNo) : Calm s (s.glitch n) := by
  have marked : Calm s (s.updLine n fun r =>
      { r with doubt := none, sticky := r.sticky ||| glitchMark }) := .updLine .of_eq
  exact .ite (fun _ => marked.trans (.of_frame (State.frame_updSession _ n _))) fun _ => marked

/-- The carrier rules begin no call: an answered one was granted before. -/
theorem Calm.carrierRule (s : State) (n : LineNo) (w : Word) : Calm s (s.carrierRule n w) := by
  have speed := Calm.setSpeed s n w
  simp only [State.carrierRule]
  cases hst : (s.line n).state with
  | idle | ringing => exact .ite (fun _ => speed.trans (.unsolicited _ n)) fun _ => .refl s
  | answering =>
    refine .ite (fun _ => speed.trans (.answered ?_)) fun _ => .refl s
    rw [State.state_setSpeed, hst]
    rfl
  | name | password | checking | signedOn =>
    dsimp only
    split
    · exact .ite (fun _ => .glitch s n) fun _ => .refl s
    · exact .ite (fun _ => .updLine .of_eq) fun _ => .ite (fun _ => speed) fun _ => .refl s
  | off | passive | clearing => exact .refl s

theorem AccountsKept.carrierRule (s : State) (n : LineNo) (w : Word) :
    AccountsKept s (s.carrierRule n w) := (Keeps.carrierRule s n w).calm (.carrierRule s n w)

theorem Calm.queued (s : State) (n : LineNo) : Calm s (s.queued n) :=
  .of_lines (s.frame_queued n) rfl .of_rest

theorem AccountsKept.ringRule (s : State) (n : LineNo) (w : Word) :
    AccountsKept s (s.ringRule n w) := by
  refine .ite (fun _ => ?_) fun _ => .refl s
  cases hst : (s.line n).state with
  | idle =>
    refine .ite (fun _ => ?_) fun _ => .refl s
    rw [State.ringArrival_eq]
    exact ((Keeps.queued hst).calm (.queued s n)).trans (.evaluateGrants _)
  | ringing => exact .updLine .of_eq
  | off | passive | answering | name | password | checking | signedOn | clearing => exact .refl s

theorem AccountsKept.setLastSeen (s : State) (n : LineNo) (w : Word) :
    AccountsKept s (s.setLastSeen n w) := .updLine .of_eq

theorem AccountsKept.statusWritten (s : State) (n : LineNo) (w : Word) :
    AccountsKept s (s.statusWritten n w) := by
  have ruled : ∀ u : State, AccountsKept u
      ((((u.carrierRule n w).ringRule n w).setLastSeen n w).testClearing n) := fun u =>
    (((AccountsKept.carrierRule u n w).trans (.ringRule _ n w)).trans (.setLastSeen _ n w)).trans
      (.testClearing _ n)
  simp only [State.statusWritten]
  refine (AccountsKept.writeArea s (statusOffset n) w).trans ?_
  cases ((s.writeArea (statusOffset n) w).line n).state with
  | passive => exact .refl _
  | off => exact .setLastSeen _ n w
  | idle | ringing | answering | name | password | checking | signedOn | clearing => exact ruled _

theorem AccountsKept.doubtExpired (s : State) (n : LineNo) : AccountsKept s (s.doubtExpired n) := by
  have ended : AccountsKept s (s.updLine n fun r => { r with doubt := none }) := .updLine .of_eq
  refine .ite (fun _ => ended.trans ?_) fun _ => .refl s
  exact .ite (fun call => .clearDialogue _ _ call) fun _ =>
    .ite (fun _ => .closeSession _ n _ _) fun _ => .refl _

/-! ## The command-word handshake and the line cells (R10 to R14, R18 to R21) -/

theorem Calm.readCommand (s : State) (n : LineNo) : Calm s (s.readCommand n).2 := by
  simp only [State.readCommand]
  split
  · exact .refl s
  · split
    · exact .of_lines (State.frame_updLine s n _) rfl .of_eq
    · exact .refl s

theorem LineRecord.calmer_seeAck (r : LineRecord) : r.Calmer r.seeAck := by
  simp only [LineRecord.seeAck]
  split
  · exact .of_eq
  · exact .of_eq

theorem LineRecord.Calmer.trans {a b c : LineRecord} (h : a.Calmer b) (h' : b.Calmer c) : a.Calmer c :=
  ⟨h'.pending.trans h.pending, h.calls ∘ h'.calls⟩

theorem Calm.testClearing (s : State) (n : LineNo) : Calm s (s.testClearing n) := by
  refine .updLine ?_
  split
  · exact .endClearing .of_eq
  · exact .of_eq

theorem Calm.acknowledge (s : State) (n : LineNo) (w : Word) : Calm s (s.acknowledge n w) := by
  simp only [State.acknowledge]
  split
  · refine (Calm.updLine ?_).trans (.testClearing _ n)
    simp only [LineRecord.takeAck]
    split
    · exact .trans .of_eq (LineRecord.calmer_seeAck _)
    · exact .of_eq
  · refine ((Calm.of_frame (s.frame_writeArea _ w)).trans (.updLine ?_)).trans (.testClearing _ n)
    simp only [LineRecord.passAck]
    split
    · exact LineRecord.calmer_seeAck _
    · exact .of_eq

theorem AccountsKept.processorCommand (s : State) (n : LineNo) (w : Word) :
    AccountsKept s (s.processorCommand n w) := by
  have passed := AccountsKept.writeArea s (commandOffset n) w
  refine .ite (fun _ => passed.trans ?_) fun _ => passed
  exact .ite (fun _ => .closeSession _ n _ _) fun _ =>
    .ite (fun call => .clearDialogue _ _ call) fun _ => .refl _

theorem Calm.ringGoneExpired (s : State) (n : LineNo) : Calm s (s.ringGoneExpired n) :=
  .ite (fun _ => (Calm.leaveQueue s n).trans (.updLine .of_rest)) fun _ => .refl s

theorem AccountsKept.modeLoaded (s : State) (n : LineNo) (m : LineMode) :
    AccountsKept s (s.modeLoaded n m) := by
  refine .ite (fun _ => .refl s) fun changed => ?_
  have keeps : Keeps s (s.modeLoaded n m) := Keeps.modeLoaded s n m
  rw [State.modeLoaded, if_neg changed] at keeps
  dsimp only at keeps ⊢
  have moded : AccountsKept s (s.updLine n fun r => { r with mode := m }) := .updLine .of_eq
  have calm : Calm s (s.updLine n fun r => { r with mode := m }) := .updLine .of_eq
  have dialogue : (s.line n).state.inDialogue = true →
      ((s.updLine n fun r => { r with mode := m }).line n).state.inDialogue = true := by
    simp
  cases hst : (s.line n).state with
  | off | passive | idle =>
    rw [hst] at keeps
    exact keeps.calm (calm.trans (.updLine (LineRecord.calmer_toMode _ m)))
  | ringing =>
    rw [hst] at keeps
    exact keeps.calm ((calm.trans (.leaveQueue _ n)).trans
      (.updLine (LineRecord.calmer_toMode _ m)))
  | answering | name | password | checking =>
    exact moded.trans (.clearDialogue _ _ (dialogue (by rw [hst]; rfl)))
  | signedOn => exact moded.trans (.closeSession _ n _ _)
  | clearing =>
    rw [hst] at keeps
    exact keeps.calm (calm.trans (.updLine .of_eq))

theorem AccountsKept.hangRequested (s : State) (n : LineNo) (m : Manner) :
    AccountsKept s (s.hangRequested n m) := by
  have keeps := Keeps.hangRequested s n m
  simp only [State.hangRequested] at keeps ⊢
  cases hst : (s.line n).state with
  | signedOn => exact .closeSession s n _ _
  | answering | name | password | checking => exact .clearDialogue _ _ (by rw [hst]; rfl)
  | ringing =>
    rw [hst] at keeps
    exact keeps.calm ((Calm.leaveQueue s n).trans (.updLine (LineRecord.calmer_toMode _ .watched)))
  | clearing => exact .ite (fun _ => .updLine .of_eq) fun _ => .refl s
  | idle | off | passive => exact .refl s

theorem AccountsKept.refuse (s : State) (m : Master) (o : Offset) : AccountsKept s (s.refuse m o) :=
  .of_frame (s.frame_refuse m o)

theorem AccountsKept.writeSetting (s : State) (n : LineNo) (w : Word) :
    AccountsKept s (s.writeSetting n w) := by
  have loaded : AccountsKept s (s.settingModeLoad n w) := by
    simp only [State.settingModeLoad]
    split
    · exact .modeLoaded s n _
    · exact .refl s
  refine .ite (fun _ => .refuse s _ _) fun _ => loaded.trans ?_
  simp only [State.settingHangRequest]
  split
  · exact .hangRequested _ n _
  all_goals exact .refl _

theorem AccountsKept.readStatus0 (s : State) (n : LineNo) : AccountsKept s (s.readStatus0 n).2 :=
  (Keeps.readStatus0 s n).calm (.of_lines (s.frame_updLine n _) rfl .of_eq)

theorem AccountsKept.writePut (s : State) (n : LineNo) (w : Word) : AccountsKept s (s.writePut n w) :=
  (AccountsKept.writeArea s (putOffset n) w).trans (.updLine .of_eq)

theorem AccountsKept.writeTake (s : State) (n : LineNo) (w : Word) : AccountsKept s (s.writeTake n w) :=
  (AccountsKept.writeArea s (takeOffset n) w).trans (.updLine .of_eq)

theorem AccountsKept.answerExpired (s : State) (n : LineNo) : AccountsKept s (s.answerExpired n) :=
  .ite (fun due => .clearDialogue _ _ (by rw [due.1]; rfl)) fun _ => .refl s

/-! ## The dialogue (R42 to R50) -/

theorem AccountsKept.submit (s : State) (q : Request) : AccountsKept s (s.submit q) := by
  have queued : AccountsKept s
      { s with directory := { s.directory with queue := s.directory.queue ++ [q] } } :=
    .of_frame (s.frame_requested _)
  exact queued.trans ((Keeps.startService _).accounts (State.frame_startService _))

/-- A change of a line's context, and the line on to a state of its dialogue. -/
theorem AccountsKept.movedOn {s : State} {k : CtxNo} {n : LineNo} {f : Context → Context} {x : LineState}
    (dialogue : (s.line n).state.inDialogue = true) (next : x.inDialogue = true)
    (holder : (f (s.ctx k)).holder = (s.ctx k).holder) :
    AccountsKept s ((s.updCtx k f).updLine n fun r => { r with state := x }) := by
  have same : (s.line n).SameCall { s.line n with state := x } := .of_dialogue dialogue next
  have moved : AccountsKept (s.updCtx k f)
      ((s.updCtx k f).updLine n fun r => { r with state := x }) := .updLine same
  exact .trans (.updCtx holder) moved

theorem AccountsKept.rejectAttempt {s : State} (k : CtxNo) {n : LineNo} (reason : RejectReason)
    (dialogue : (s.line n).state.inDialogue = true) :
    AccountsKept s (s.rejectAttempt k n reason) := by
  refine .ite (fun _ => ?_) fun _ => .clearDialogue _ _ dialogue
  exact .trans (.movedOn dialogue rfl rfl) (.give _ _)

theorem AccountsKept.endName {s : State} (k : CtxNo) {n : LineNo}
    (dialogue : (s.line n).state.inDialogue = true) : AccountsKept s (s.endName k n) := by
  refine .ite (fun _ => .refl s) fun _ => .ite (fun _ => .rejectAttempt k _ dialogue) fun _ => ?_
  exact .trans (.movedOn dialogue rfl rfl) (.give _ _)

theorem AccountsKept.endPassword {s : State} (k : CtxNo) {n : LineNo}
    (dialogue : (s.line n).state.inDialogue = true) : AccountsKept s (s.endPassword k n) := by
  refine .ite (fun _ => .refl s) fun _ => ?_
  exact .trans (.movedOn dialogue rfl rfl) (.submit _ _)

theorem AccountsKept.restartDialogue {s : State} (k : CtxNo) {n : LineNo}
    (dialogue : (s.line n).state.inDialogue = true) : AccountsKept s (s.restartDialogue k n) :=
  .trans (.movedOn dialogue rfl rfl) (.give _ _)

theorem AccountsKept.countNoise {s : State} (k : CtxNo) {n : LineNo}
    (dialogue : (s.line n).state.inDialogue = true) : AccountsKept s (s.countNoise k n) := by
  have counted : AccountsKept s (s.updCtx k fun c => { c with noise := c.noise + 1 }) := .updCtx rfl
  exact .ite (fun _ => counted.trans (.clearDialogue _ _ dialogue)) fun _ => counted

theorem AccountsKept.dialogueEntry (s : State) (k : CtxNo) (n : LineNo) (w : Word) :
    AccountsKept s (s.dialogueEntry k n w) := by
  simp only [State.dialogueEntry]
  cases hst : (s.line n).state with
  | name =>
    have dialogue : (s.line n).state.inDialogue = true := by rw [hst]; rfl
    exact .ite (fun _ => .restartDialogue k dialogue) fun _ => .ite (fun _ => .countNoise k dialogue)
      fun _ => .ite (fun _ => .endName k dialogue) fun _ => .updCtx rfl
  | password =>
    have dialogue : (s.line n).state.inDialogue = true := by rw [hst]; rfl
    exact .ite (fun _ => .restartDialogue k dialogue) fun _ => .ite (fun _ => .countNoise k dialogue)
      fun _ => .ite (fun _ => .endPassword k dialogue) fun _ => .updCtx rfl
  | answering | checking | off | passive | idle | ringing | signedOn | clearing => exact .refl s

theorem AccountsKept.receive (s : State) (n : LineNo) (i : Fin 32) (w : Word) :
    AccountsKept s (s.receive n i w) := by
  have marked : ∀ u : State, AccountsKept u (u.addMarks n w) := fun _ => .updLine .of_eq
  simp only [State.receive]
  refine (AccountsKept.writeArea s (receiveOffset n i) (s.entryInMemory n w)).trans ?_
  cases ((s.writeArea (receiveOffset n i) (s.entryInMemory n w)).line n).state with
  | passive => exact .refl _
  | off | idle | ringing | clearing => exact marked _
  | signedOn =>
    exact (marked _).trans ((AccountsKept.updLine .of_eq).trans (.updSession _ n _))
  | answering | name | password | checking =>
    dsimp only
    refine (marked _).trans ?_
    split
    · exact .dialogueEntry _ _ n w
    · exact .refl _

theorem AccountsKept.signOnExpired (s : State) (k : CtxNo) : AccountsKept s (s.signOnExpired k) := by
  simp only [State.signOnExpired]
  split
  · rename_i n hn
    refine .ite (fun _ => ?_) fun _ => .refl s
    by_cases hs : WellLinked s
    · refine .clearDialogue _ _ ?_
      rw [← (hs.line n).2.2.1, ((hs.line n).2.1 k).mpr hn]
      rfl
    · exact .of_unlinked (s.frame_clearDialogue n _ _) hs
  · exact .refl s

/-! ## Lookups (R55, R72 to R74) -/

/-- A line in a dialogue gives up its context for a session record (R55, R109). -/
theorem AccountsKept.signedOn {s : State} {n : LineNo} {k : CtxNo} {x : Session}
    (dialogue : (s.line n).state.inDialogue = true) (held : (s.ctx k).holder = some n)
    (inRange : Lawful s → x.inRange) : AccountsKept s
      (((s.updLine n LineRecord.accepted).updCtx k Context.freed).setSession n (some x)) := by
  have call := LineState.inCall_of_inDialogue dialogue
  have accepted : Calm s (s.updLine n LineRecord.accepted) := .updLine (.of_call call)
  exact (Keeps.signedOn dialogue held inRange).calm
    ((accepted.trans (.of_frame (State.frame_updCtx _ k _))).trans
      (.of_frame (State.frame_setSession _ n _)))

/-- An acceptance gives the claim of the context to the session. -/
theorem AccountsKept.acceptCall {s : State} {k : CtxNo} {n : LineNo} (i : SlotNo)
    (dialogue : (s.line n).state.inDialogue = true) (held : (s.ctx k).holder = some n) :
    AccountsKept s (s.acceptCall k n i) := by
  simp only [State.acceptCall, State.openSession]
  have counted : AccountsKept s (s.updSlot i fun a =>
      { a with openSessions := a.openSessions + 1, failures := 0 }) := .of_frame (s.frame_updSlot i _)
  refine counted.trans (.trans (.signedOn dialogue held (State.newSession_inRange i rfl)) ?_)
  refine ((Keeps.judgeLowBudget _ n i).accounts (State.frame_judgeLowBudget _ n i)).trans
    (((Keeps.judgeOpenBand _ n i).accounts (State.frame_judgeOpenBand _ n i)).trans ?_)
  exact (AccountsKept.give _ _).trans ((AccountsKept.of_frame (State.frame_withdrawPrompts _ n)).trans
    (.evaluateGrants _))

theorem AccountsKept.applyOutcome (s : State) (k : CtxNo) (n : LineNo) (o : LookupOutcome)
    (oi : Option SlotNo) : AccountsKept s (s.applyOutcome k n o oi) := by
  refine .ite (fun applies => ?_) fun _ => .refl s
  obtain ⟨held, checking, -⟩ := State.completionApplies_iff.mp applies
  have dialogue : ((s.endLookup k).line n).state.inDialogue = true := by
    simp [State.endLookup, checking, LineState.inDialogue]
  have ended : AccountsKept s (s.endLookup k) := .updCtx rfl
  refine ended.trans ?_
  split
  · exact .acceptCall _ dialogue (by simpa [State.endLookup] using held)
  · exact .refl _
  · exact .rejectAttempt k _ dialogue

theorem AccountsKept.startService (s : State) : AccountsKept s s.startService :=
  (Keeps.startService s).accounts s.frame_startService

theorem AccountsKept.lookupCompleted (s : State) : AccountsKept s s.lookupCompleted := by
  simp only [State.lookupCompleted]
  split
  · exact (((AccountsKept.of_frame (s.frame_inService none)).trans
      (.of_frame (State.frame_lookupOwnEffect _ _ _))).trans (.applyOutcome _ _ _ _ _)).trans
      (.startService _)
  · exact .refl s
  · exact .refl s

end Sys2Proof.Machine
end

section
/-!
SUPPORT. What the ticks, the tables, the plan and the journal's own operations make of its accounts.
-/

namespace Sys2Proof.Machine

-- One proof after another: a default `by` argument waits for every earlier proof of the text.
set_option Elab.async false

/-! ## The ticks (R100, R110 to R116) -/

theorem Calm.shortTicked (s : State) : Calm s s.shortTicked := by
  cases hd : s.meter.divisor.isSome with
  | false =>
    rw [State.shortTicked, if_neg (by simp [hd])]
    exact .refl s
  | true =>
    have frame := s.frame_shortTicked
    have line := State.line_shortTicked hd
    exact ⟨frame .ring (by decide), (frame .posting (by decide)).1,
      congrArg Plan.state (frame .plan (by decide)), fun n => by rw [line]; rfl,
      fun n => by rw [line]; exact id⟩

theorem AccountsKept.graceExpired (s : State) (n : LineNo) : AccountsKept s (s.graceExpired n) := by
  simp only [State.graceExpired]
  split
  · exact .refl s
  · split
    · exact .refl s
    · exact .ite (fun _ => .closeSession s n _ _) fun _ => .refl s

theorem AccountsKept.runGrace (s : State) (n : LineNo) : AccountsKept s (s.runGrace n) :=
  (AccountsKept.updSession s n _).trans (.graceExpired _ n)

theorem AccountsKept.countCharge (s : State) (n : LineNo) (x : Session) (rate : Nat) :
    AccountsKept s (s.countCharge n x rate) :=
  .ite (fun _ => (AccountsKept.updSession s n _).trans
    ((Keeps.chargeUnit _ n x.slot).accounts (State.frame_chargeUnit _ n x.slot)))
    fun _ => .updSession s n _

theorem AccountsKept.visitSecond (s : State) (running : Bool) (n : LineNo) (x : Session) :
    AccountsKept s (s.visitSecond running n x) := by
  have counted : AccountsKept s
      (s.updSession n fun x => { x with seconds := countUp x.seconds Config.maxSeconds }) :=
    .updSession s n _
  simp only [State.visitSecond]
  split
  · exact counted
  · exact counted
  · refine .ite (fun _ => counted) fun _ => ?_
    have charged := fun rate => counted.trans (.countCharge _ n x rate)
    exact .ite (fun _ => (charged _).trans (.runGrace _ n)) fun _ => charged _

theorem AccountsKept.secondTicked (s : State) : AccountsKept s s.secondTicked := by
  have sessions : s.meter.countSecondTick.sessions = s.meter.sessions := by
    simp only [Meter.countSecondTick]
    split <;> rfl
  exact .ite (fun _ => .forSessions (.of_frame (State.frame_setMeter sessions))
    fun n x u _ => .visitSecond u _ n x) fun _ => .refl s

theorem AccountsKept.idleExpired (s : State) (n : LineNo) : AccountsKept s (s.idleExpired n) := by
  simp only [State.idleExpired]
  split
  · exact .refl s
  · split
    · exact .refl s
    · exact .refl s
    · exact .ite (fun _ => .closeSession s n _ _) fun _ => .refl s

theorem AccountsKept.idleCheck (s : State) (n : LineNo) (x : Session) :
    AccountsKept s (s.idleCheck n x) := by
  simp only [State.idleCheck]
  split
  · exact .refl s
  · exact .refl s
  · have counted : AccountsKept s
        (s.updLine n fun r => { r with idle := r.idleAfter, activity := false }) :=
      .updLine ⟨rfl, rfl, .rfl, .rfl, id, id, fun _ => LineRecord.idleAfter_le _⟩
    refine AccountsKept.trans (.ite (fun _ => counted.trans ?_) fun _ => counted) (.idleExpired _ n)
    exact (AccountsKept.give _ _).trans (.updSession _ n _)

theorem AccountsKept.reevaluateBand (s : State) : AccountsKept s s.reevaluateBand :=
  (Keeps.reevaluateBand s).accounts s.frame_reevaluateBand

theorem AccountsKept.minuteTicked (s : State) : AccountsKept s s.minuteTicked := by
  refine .ite (fun _ => ?_) fun _ => .refl s
  have clock : AccountsKept s { s with meter :=
      { s.meter.advanceClock with minutesDue := s.meter.minutesDue - 1 } } :=
    .of_frame (State.frame_setMeter s.meter.sessions_advanceClock)
  exact (AccountsKept.forSessions (clock.trans (.reevaluateBand _))
    fun n x u _ => .idleCheck u n x).trans (.of_frame (State.frame_tickLocks _))

/-! ## The plan (R123, R166, R167) -/

theorem LineRecord.recordPending_planStarted (r : LineRecord) :
    r.planStarted.recordPending = r.recordPending := by
  simp only [LineRecord.planStarted]
  split <;> rfl

/-- No line is in a call at an accepted plan start (R166). -/
theorem State.calls_planStarted {s : State} (w : Word) (h : s.planStartAllowed = true) :
    (s.planStarted w).calls = 0 := by
  obtain ⟨states, -⟩ := State.planStartAllowed_iff.mp h
  refine List.length_eq_zero_iff.mpr (List.filter_eq_nil_iff.mpr fun n _ => ?_)
  rw [State.line_planStarted, LineRecord.planStarted_eq]
  rcases states n with off | passive | idle | ringing
  · simp [off, LineState.inCall, LineState.inDialogue]
  · simp [passive, LineState.inCall, LineState.inDialogue]
  · simp [idle, LineState.inCall, LineState.inDialogue]
  · simp [ringing, LineState.inCall, LineState.inDialogue]

/-- A plan start takes the ring away and finds neither a call nor a record. -/
theorem AccountsKept.planStarted {s : State} (w : Word) (h : s.planStartAllowed = true) :
    AccountsKept s (s.planStarted w) := by
  obtain ⟨-, empty, -⟩ := State.planStartAllowed_iff.mp h
  have links := (Keeps.planStarted s w).links
  have queue : (s.planStarted w).journal.queue = [] := empty
  have unset : CapacityUnset (s.planStarted w) := fun _ _ _ => rfl
  refine ⟨⟨links, fun linked _ => ⟨?_, unset⟩, fun _ hs => ?_⟩,
    fun _ => ⟨unset, fun hc => absurd hc (Nat.lt_irrefl 0), fun _ => ⟨rfl, rfl, rfl⟩⟩⟩
  · rw [(links linked).claims, State.calls_planStarted w h, queue]
    exact Nat.le_refl 0
  · have clear : ∀ n, ((s.planStarted w).line n).recordPending = false := fun n => by
      rw [State.line_planStarted, LineRecord.recordPending_planStarted, Bool.eq_false_iff, ne_eq,
        hs.2.1 n, empty]
      exact List.not_mem_nil
    refine ⟨?_, fun n => ?_, fun n pending => ?_⟩
    · rw [queue]
      exact List.nodup_nil
    · rw [clear, queue]
      simp
    · rw [clear] at pending
      cases pending

theorem AccountsKept.writePlanStart (s : State) (w : Word) : AccountsKept s (s.writePlanStart w) :=
  .ite (fun h => .planStarted w h) fun _ => .give s _

/-- The plan moved on, not back to a word before the capacity's. -/
theorem AccountsKept.setPlan {s : State} {p : Plan}
    (unset : CapacityUnset s → CapacityUnset (s.setPlan p)) : AccountsKept s (s.setPlan p) where
  links h := h.of_frame (s.frame_setPlan p)
  credit _ hs := ⟨hs.claimed, unset hs.unset⟩
  records _ := id
  ring hs := ⟨unset hs.1, hs.2⟩

/-- Plan word 3 sets the capacity of a ring that holds no record and serves no call. -/
theorem AccountsKept.planWord3 {s : State} {c l : Nat} {p : Plan} (word : s.plan.state = .planning 3)
    (next : p.state = .planning 4) (positive : 0 < c) :
    AccountsKept s ((s.capacitySet c l).setPlan p) := by
  have unset : CapacityUnset ((s.capacitySet c l).setPlan p) := fun k hk hle => by
    cases next.symm.trans hk
    exact absurd hle (by decide)
  have frame := ((s.frame_capacitySet c l).mono (bs := [.ring, .plan]) (by decide)).step
    (State.frame_setPlan _ p)
  refine ⟨⟨fun h => h.of_frame frame, fun _ hs => ⟨?_, unset⟩, fun _ => id⟩, fun hs => ⟨unset, ?_⟩⟩
  · have none_claimed := hs.claimed
    rw [hs.unset 3 word (Nat.le_refl 3)] at none_claimed
    exact none_claimed.trans (Nat.zero_le c)
  · obtain ⟨head, tail, visible⟩ := hs.2.2 (hs.1 3 word (Nat.le_refl 3))
    refine ⟨fun _ => ⟨?_, ?_⟩, fun hc => absurd (show c = 0 from hc) (Nat.ne_of_gt positive)⟩
    · exact lt_of_eq_of_lt tail positive
    · simp [State.capacitySet, State.setPlan, head, tail, visible]

theorem CapacityUnset.setPlan {s : State} {p : Plan}
    (words : ∀ k, p.state = .planning k → k ≤ 3 → ∃ j ≤ 3, s.plan.state = .planning j)
    (h : CapacityUnset s) : CapacityUnset (s.setPlan p) := fun k hk hle => by
  obtain ⟨j, low, hj⟩ := words k hk hle
  exact h j hj low

theorem AccountsKept.nextPlanWord {s : State} {k : Nat} {w : Word} (hk : s.plan.state = .planning k) :
    AccountsKept s ((s.applyPlanWord k w).setPlan
      { (s.applyPlanWord k w).plan with state := .planning (k + 1) }) := by
  have onward : ∀ (u : State) (p : Plan), u.plan.state = s.plan.state →
      p.state = .planning (k + 1) → AccountsKept u (u.setPlan p) := fun u p hu hp =>
    .setPlan (.setPlan fun j hj low => ⟨k, by cases hp.symm.trans hj; omega, hu.trans hk⟩)
  by_cases h3 : k = 3
  · subst h3
    rw [State.applyPlanWord_three w hk]
    exact .planWord3 hk rfl (by rw [Nat.shiftLeft_eq]; positivity)
  · by_cases h2 : k = 2
    · subst h2
      have divided : AccountsKept s (s.applyPlanWord 2 w) :=
        .of_frame (State.frame_setMeter (m := { s.meter with divisor := some w.toNat }) rfl)
      exact divided.trans (onward _ _ rfl rfl)
    · rw [State.applyPlanWord_of_plan s w h2 h3]
      exact onward s { s.plan.applyWord k w with state := .planning (k + 1) } rfl rfl

theorem AccountsKept.writePlanWord (s : State) (w : Word) : AccountsKept s (s.writePlanWord w) := by
  simp only [State.writePlanWord]
  split
  · rename_i k hk
    refine .ite (fun _ => .ite (fun last => ?_) fun _ => .nextPlanWord hk) fun _ => ?_
    · subst last
      refine AccountsKept.trans ?_ ((AccountsKept.give _ _).trans (.evaluateGrants _))
      exact .setPlan (s := s) (.setPlan fun _ h => by cases h)
    · exact .trans (.setPlan (.setPlan fun _ h => by cases h)) (.give _ _)
  · exact .refuse s _ _
  · exact .refuse s _ _

/-! ## The tail (R138) -/

/-- The advance a tail write asks for is the way from the old tail to the new one (R138). -/
theorem Journal.advanceTo_spec {j : Journal} {i : Nat} (tail : j.tail < j.capacity)
    (index : i < j.capacity) (within : j.advanceTo i ≤ j.visible) :
    (j.tail + j.visible) % j.capacity = (i + (j.visible - j.advanceTo i)) % j.capacity := by
  by_cases round : i = j.tail ∧ j.full
  · rw [Journal.advanceTo, if_pos round]
    obtain ⟨rfl, full⟩ := round
    simp only [Journal.full, Bool.and_eq_true, beq_iff_eq] at full
    simp [full.1]
  · rw [Journal.advanceTo, if_neg round] at within ⊢
    by_cases behind : j.tail ≤ i
    · have way : (i + j.capacity - j.tail) % j.capacity = i - j.tail := by
        rw [show i + j.capacity - j.tail = i - j.tail + j.capacity by omega, Nat.add_mod_right,
          Nat.mod_eq_of_lt (by omega)]
      rw [way] at within ⊢
      congr 1
      omega
    · have way : (i + j.capacity - j.tail) % j.capacity = i + j.capacity - j.tail :=
        Nat.mod_eq_of_lt (by omega)
      rw [way] at within ⊢
      rw [show j.tail + j.visible = i + (j.visible - (i + j.capacity - j.tail)) + j.capacity by omega,
        Nat.add_mod_right]

/-- The records before a new tail given up (R138). -/
def State.tailMoved (s : State) (i adv : Nat) : State :=
  { s with journal := { s.journal with tail := i, visible := s.journal.visible - adv } }

theorem State.frame_tailMoved (s : State) (i adv : Nat) : SameBut [.ring] s (s.tailMoved i adv) := by
  intro b hb; cases b <;> first | exact absurd (by decide) hb | simp [Block.same, State.tailMoved]

theorem AccountsKept.tailMoved {s : State} {i : Nat} (index : i < s.journal.capacity)
    (within : s.journal.advanceTo i ≤ s.journal.visible) :
    AccountsKept s (s.tailMoved i (s.journal.advanceTo i)) where
  links h := h.of_frame (s.frame_tailMoved i _)
  credit _ hs := by
    have claimed := hs.claimed
    refine ⟨?_, hs.unset⟩
    simp only [State.claims] at claimed
    simp only [State.claims, State.tailMoved, State.heldContexts, State.openSessions, State.ctx,
      State.session] at claimed ⊢
    omega
  records _ := id
  ring hs := by
    obtain ⟨tail, head⟩ := hs.2.1 (by omega)
    exact ⟨hs.1, fun _ => ⟨index, head.trans (Journal.advanceTo_spec tail index within)⟩,
      fun none => absurd (show s.journal.capacity = 0 from none) (by omega)⟩

theorem AccountsKept.writeTail (s : State) (w : Word) : AccountsKept s (s.writeTail w) :=
  .ite (fun accepted => .ite (fun _ => .refl s) fun _ =>
    (AccountsKept.tailMoved accepted.1 accepted.2).trans (.evaluateGrants _)) fun _ => .refuse s _ _

/-! ## The posting of a record (R133) -/

/-- Steps 1 to 4 of a completion: the oldest record in memory and visible (R133). -/
def State.recordWritten (s : State) (r : JournalRecord) (rest : List JournalRecord) : State :=
  let s := s.writeRecord s.journal.head r.words.toList 16
  let s := { s with journal := { s.journal with queue := rest } }
  let s := s.updLine r.line fun r => { r with recordPending := false }
  { s with journal := { s.journal with
    head := advance s.journal.head s.journal.capacity, visible := s.journal.visible + 1 } }

theorem State.recordPosted_nil {s : State} (h : s.journal.queue = []) : s.recordPosted = s := by
  simp only [State.recordPosted, h]

theorem State.recordPosted_cons {s : State} {r : JournalRecord} {rest : List JournalRecord}
    (h : s.journal.queue = r :: rest) :
    s.recordPosted = ((s.recordWritten r rest).give .journalRecords).evaluateGrants := by
  simp only [State.recordPosted, h]
  rfl

theorem State.frame_recordWritten (s : State) (r : JournalRecord) (rest : List JournalRecord) :
    SameBut [.mem, .posting, .lines, .ring] s (s.recordWritten r rest) := by
  have written := (s.frame_writeRecord s.journal.head r.words.toList 16).mono
    (bs := [.mem, .posting, .lines, .ring]) (by decide)
  exact ((written.step (State.frame_journalQueue _ rest)).step (State.frame_updLine _ r.line _)).step
    (State.frame_journalHead _ _ _)

theorem State.lines_recordWritten (s : State) (r : JournalRecord) (rest : List JournalRecord) :
    (s.recordWritten r rest).lines =
      s.lines.set r.line { s.line r.line with recordPending := false } := by
  have lines : (s.writeRecord s.journal.head r.words.toList 16).lines = s.lines :=
    s.frame_writeRecord s.journal.head r.words.toList 16 .lines (by decide)
  simp only [State.recordWritten, State.updLine, State.setLine, State.line, lines]

theorem State.ring_recordWritten (s : State) (r : JournalRecord) (rest : List JournalRecord) :
    (s.recordWritten r rest).journal.capacity = s.journal.capacity
      ∧ (s.recordWritten r rest).journal.head = advance s.journal.head s.journal.capacity
      ∧ (s.recordWritten r rest).journal.tail = s.journal.tail
      ∧ (s.recordWritten r rest).journal.visible = s.journal.visible + 1 := by
  have ring : Block.ring.same s (s.writeRecord s.journal.head r.words.toList 16) :=
    s.frame_writeRecord s.journal.head r.words.toList 16 .ring (by decide)
  obtain ⟨capacity, head, tail, visible, -⟩ := ring
  simp [State.recordWritten, capacity, head, tail, visible]

theorem advance_mod {p n c : Nat} (tail : p < c) :
    advance ((p + n) % c) c = (p + (n + 1)) % c := by
  have positive : 0 < c := by omega
  have lt := Nat.mod_lt (p + n) positive
  rw [← Nat.add_assoc, Nat.add_mod (p + n) 1 c, Nat.add_mod_mod]
  simp only [advance]
  split
  · rw [Nat.mod_eq_of_lt (a := (p + n) % c + 1) (by omega)]
  · rw [show (p + n) % c + 1 = c by omega, Nat.mod_self]

theorem CapacityUnset.recordWritten {s : State} (r : JournalRecord) (rest : List JournalRecord)
    (h : CapacityUnset s) : CapacityUnset (s.recordWritten r rest) := by
  have plan : (s.recordWritten r rest).plan = s.plan := s.frame_recordWritten r rest .plan (by decide)
  obtain ⟨capacity, -⟩ := s.ring_recordWritten r rest
  simpa only [CapacityUnset, plan, capacity] using h

/-- The oldest record gives its claim to the visible one. -/
theorem ClaimsKept.recordWritten {s : State} {r : JournalRecord} {rest : List JournalRecord}
    (h : s.journal.queue = r :: rest) : ClaimsKept s (s.recordWritten r rest) := by
  have frame := s.frame_recordWritten r rest
  have lines := s.lines_recordWritten r rest
  have queue : (s.recordWritten r rest).journal.queue = rest := rfl
  have others := State.otherLines_of_lines lines
  have own := State.line_of_lines lines
  refine ⟨fun links => ?_, fun _ hs => ⟨?_, hs.unset.recordWritten r rest⟩, fun _ hs => ?_⟩
  · have same : (s.recordWritten r rest).answerQueue = s.answerQueue := frame .answerQueue (by decide)
    refine links.of_same same fun m => ?_
    by_cases hm : m = r.line
    · rw [hm]
      refine ⟨by rw [same], ?_⟩
      simp [own, frame.ctx (by decide), frame.session (by decide)]
    · exact .of_eq (others m hm) (by rw [same]) (frame.session (by decide) m)
        fun k => by rw [frame.ctx (by decide)]
  · have claimed := hs.claimed
    obtain ⟨capacity, -, -, visible⟩ := s.ring_recordWritten r rest
    simp only [State.claims, State.heldContexts, State.openSessions, frame.ctx (by decide),
      frame.session (by decide), capacity, visible, queue, h, List.length_cons] at claimed ⊢
    omega
  · obtain ⟨distinct, flagged, idle⟩ := hs
    simp only [h, List.map_cons, List.nodup_cons, List.mem_cons] at distinct flagged
    obtain ⟨head_once, distinct⟩ := distinct
    refine ⟨queue ▸ distinct, fun m => ?_, fun m pending => ?_⟩
    · rw [queue]
      by_cases hm : m = r.line
      · rw [hm, own]
        simp [head_once]
      · rw [others m hm, flagged m]
        simp [hm]
    · by_cases hm : m = r.line
      · rw [hm, own] at pending
        cases pending
      · rw [others m hm] at pending ⊢
        exact idle m pending

theorem RingSound.recordWritten {s : State} {r : JournalRecord} {rest : List JournalRecord}
    (room : 0 < s.journal.capacity) (h : RingSound s) : RingSound (s.recordWritten r rest) := by
  obtain ⟨capacity, head, tail, visible⟩ := s.ring_recordWritten r rest
  obtain ⟨inside, placed⟩ := h.2.1 room
  refine ⟨h.1.recordWritten r rest, fun _ => ?_, fun none => ?_⟩
  · rw [capacity, head, tail, visible, placed]
    exact ⟨inside, advance_mod inside⟩
  · rw [capacity] at none
    omega

theorem AccountsKept.journalRecords (s : State) :
    AccountsKept s (s.give .journalRecords).evaluateGrants :=
  (AccountsKept.give s _).trans (.evaluateGrants _)

theorem ClaimsKept.recordPosted (s : State) : ClaimsKept s s.recordPosted := by
  cases h : s.journal.queue with
  | nil => exact (State.recordPosted_nil h).symm ▸ .refl s
  | cons r rest =>
    rw [State.recordPosted_cons h]
    exact (ClaimsKept.recordWritten h).trans (AccountsKept.journalRecords _).toClaimsKept

/-- A record is posted to a ring that has a capacity. -/
theorem RingSound.recordPosted {s : State} (room : s.journal.capacity = 0 → s.journal.queue = [])
    (hs : RingSound s) : RingSound s.recordPosted := by
  cases h : s.journal.queue with
  | nil => exact (State.recordPosted_nil h).symm ▸ hs
  | cons r rest =>
    rw [State.recordPosted_cons h]
    refine (AccountsKept.journalRecords _).ring (hs.recordWritten (Nat.pos_of_ne_zero fun none => ?_))
    rw [room none] at h
    cases h

/-- A bounded credit leaves no record queued for a ring without a capacity. -/
theorem CreditBounded.room {s : State} (h : CreditBounded s) (none : s.journal.capacity = 0) :
    s.journal.queue = [] := by
  have claimed := h.claimed
  rw [none, State.claims] at claimed
  exact List.length_eq_zero_iff.mp (by omega)

end Sys2Proof.Machine
end

section
/-!
PROOFS. Every step keeps the accounts of the journal (R122, R126, R127).
-/

namespace Sys2Proof.Machine

-- One proof after another: a default `by` argument waits for every earlier proof of the text.
set_option Elab.async false

/-! ## The taking of a cycle (R157, R158) -/

theorem AccountsKept.setAttention (s : State) (a : Attention) : AccountsKept s (s.setAttention a) :=
  .of_frame (s.frame_setAttention a)

theorem AccountsKept.processorRead (s : State) (o : Offset) :
    AccountsKept s (s.processorRead o).state := by
  simp only [State.processorRead]
  split
  case h_1 => exact .of_frame s.frame_readAttention
  case h_7 => exact .of_frame s.frame_readLatch
  case h_8 => exact .of_frame s.frame_readCensus
  case h_20 => exact .readStatus0 s _
  all_goals exact .refl s

theorem AccountsKept.readCommand (s : State) (n : LineNo) : AccountsKept s (s.readCommand n).2 :=
  (Keeps.readCommand s n).calm (.readCommand s n)

theorem AccountsKept.scannerRead (s : State) (o : Offset) :
    AccountsKept s (s.scannerRead o).state := by
  simp only [State.scannerRead]
  split
  · split
    · exact .refl s
    · exact .readCommand s _
  all_goals exact .refl s

theorem AccountsKept.processorWrite (s : State) (o : Offset) (w : Word) :
    AccountsKept s (s.processorWrite o w).state := by
  simp only [State.processorWrite]
  split
  · exact .processorCommand s _ w
  · exact .of_frame (s.frame_writeAttention w)
  · exact .setAttention s _
  · exact .setAttention s _
  · exact .writePlanStart s w
  · exact .writePlanWord s w
  · exact .writeTail s w
  · exact .of_frame (s.frame_startCensus w)
  · exact (Keeps.writeCommit s w).accounts (s.frame_writeCommit w)
  · exact (Keeps.writeClockMinute s w).accounts (s.frame_writeClockMinute w)
  · exact (Keeps.writeClockDay s w).accounts (s.frame_writeClockDay w)
  · exact .of_frame (s.frame_writeTariff _ _ w)
  · exact .of_frame (s.frame_writeBandStart _ w)
  · exact .of_frame (s.frame_writeWeekend w)
  · rename_i c _
    simp only [takenWrite, written]
    exact (Keeps.writePermit s c w).accounts (s.frame_writePermit c w)
  · exact .writeSetting s _ w
  · exact .of_frame (s.frame_writeStaging _ w)
  · exact .writePut s _ w
  case h_19 | h_20 | h_21 | h_22 | h_23 | h_24 | h_25 => exact .writeArea s o w
  all_goals exact .of_frame (s.frame_writeRefused .processor o)

theorem AccountsKept.acknowledge (s : State) (n : LineNo) (w : Word) :
    AccountsKept s (s.acknowledge n w) := (Keeps.acknowledge s n w).calm (.acknowledge s n w)

theorem AccountsKept.scannerWrite (s : State) (o : Offset) (w : Word) :
    AccountsKept s (s.scannerWrite o w).state := by
  simp only [State.scannerWrite]
  split
  · exact .acknowledge s _ w
  · exact .statusWritten s _ w
  · exact .of_frame (s.frame_sweepMarked w)
  · exact .receive s _ _ w
  · exact .writeTake s _ w
  case h_6 | h_7 | h_8 | h_9 | h_10 => exact .writeArea s o w
  all_goals exact .of_frame (s.frame_writeRefused .scanner o)

theorem AccountsKept.classify (s : State) (c : Cycle) : AccountsKept s (s.classify c).state := by
  simp only [State.classify]
  split
  · rename_i o _
    simp only [State.takeInside]
    split
    · exact .processorRead s o
    · exact .scannerRead s o
    · exact .processorWrite s o _
    · exact .scannerWrite s o _
  · simp only [State.takeOutside]
    split
    · exact .of_frame (s.frame_writeMem _ _)
    · exact .refl s

theorem AccountsKept.takeCycle (s : State) (c : Cycle) : AccountsKept s (s.takeCycle c) :=
  (AccountsKept.classify s c).trans (.of_frame (State.frame_setOwner _ _))

/-! ## The memory-side arbiter (R159, R160) -/

theorem AccountsKept.arrive (s : State) (c : Cycle) : AccountsKept s (s.arrive c) := by
  refine .ite (fun _ => .refl s) fun _ => ?_
  refine (AccountsKept.of_frame (s.frame_setBrdy c.master false)).trans
    ((AccountsKept.of_frame (State.frame_closeWindowAt _ c)).trans ?_)
  exact .ite (fun _ => .takeCycle _ c) fun _ => .of_frame (State.frame_enqueueCycle _ c)

theorem AccountsKept.releaseMemorySide (s : State) : AccountsKept s s.releaseMemorySide := by
  have freed : AccountsKept s (s.setOwner .free) := .of_frame (s.frame_setOwner .free)
  refine freed.trans ?_
  simp only [State.releaseMemorySide]
  split
  · rename_i c rest _
    exact (AccountsKept.of_frame (State.frame_setWaiting _ rest)).trans (.takeCycle _ c)
  · exact .of_frame (State.frame_startPosting _)

theorem AccountsKept.endCycle (s : State) : AccountsKept s s.endCycle := by
  simp only [State.endCycle]
  split
  · refine AccountsKept.trans (.ite (fun _ => .refl s) fun _ => ?_) (.releaseMemorySide _)
    exact .of_frame (s.frame_answerCycle _ _)
  · exact .refl s
  · exact .refl s

/-- What follows the record at a completion: the window and the memory side (R133, R134, R159). -/
theorem AccountsKept.postingEnded (s : State) :
    AccountsKept s s.windowAfterPosting.releaseMemorySide :=
  (AccountsKept.of_frame s.frame_windowAfterPosting).trans (.releaseMemorySide _)

theorem ClaimsKept.postingCompleted (s : State) : ClaimsKept s s.postingCompleted := by
  simp only [State.postingCompleted]
  split
  · exact (ClaimsKept.recordPosted s).trans (AccountsKept.postingEnded _).toClaimsKept
  · exact .refl s

theorem RingSound.postingCompleted {s : State} (h : RingSound s)
    (room : s.journal.capacity = 0 → s.journal.queue = []) : RingSound s.postingCompleted := by
  simp only [State.postingCompleted]
  split
  · exact (AccountsKept.postingEnded _).ring (h.recordPosted room)
  · exact h

/-! ## The resets (R84, R121) -/

/-- The accounts of a power-on reset part are in order, and so go over to it from any. -/
theorem AccountsKept.poweredOn (s : State) : AccountsKept s s.poweredOn := by
  have frame : SameBut [.strap, .mem, .freeUses, .pending, .porn] State.reset s.poweredOn := by
    intro b hb
    cases b <;> first
      | exact absurd (by decide) hb
      | simp [Block.same, State.poweredOn, State.reset, Pins.reset, BusUnit.reset]
  obtain ⟨⟨links, credit, records⟩, ring⟩ := AccountsKept.of_frame frame
  exact ⟨⟨fun _ => links wellLinked_reset, fun _ _ => credit wellLinked_reset creditBounded_reset,
    fun _ _ => records wellLinked_reset recordsPending_reset⟩,
    fun _ => ring ⟨creditBounded_reset.unset, ringPlaced_reset⟩⟩

theorem AccountsKept.arrivals (s : State) (cs : List Cycle) :
    AccountsKept s (cs.foldl State.arrive s) := by
  induction cs generalizing s with
  | nil => exact .refl s
  | cons c cs ih => exact (AccountsKept.arrive s c).trans (ih _)

theorem AccountsKept.powerReleased (s : State) (straps : BitVec 3) (p q : Bool) :
    AccountsKept s (s.released straps p q) := by
  refine AccountsKept.trans (.of_frame (bs := [.strap, .porn]) ?_) (.arrivals _ _)
  intro b hb; cases b <;> first | exact absurd (by decide) hb | simp [Block.same]

/-! ## Every step -/

theorem AccountsKept.refreshAttn (s : State) : AccountsKept s s.refreshAttn :=
  .of_frame s.frame_refreshAttn

/-- An event keeps the accounts where its effect does. -/
theorem AccountsKept.event {s t : State} {f : State → State} (kept : ∀ u, AccountsKept u (f u))
    (ht : event f s = .next t) : AccountsKept s t := by
  cases ht
  exact .ite (fun _ => (kept s).trans (.refreshAttn _)) fun _ => .refl s

theorem AccountsKept.readEvent {s t : State} {f : State → Word × State}
    (kept : ∀ u, AccountsKept u (f u).2) (ht : readEvent f s = .next t) : AccountsKept s t :=
  .event (fun u => (kept u).trans (.of_frame (State.frame_setBd _ _))) ht

/-- An event outside the lines, the ring, the posting queue and the plan, whatever it does to the links. -/
theorem AccountsKept.frameEvent {s t : State} {f : State → State} {bs : List Block}
    (keeps : ∀ u, Keeps u (f u)) (frame : ∀ u, SameBut bs u (f u)) (ht : Machine.event f s = .next t)
    (lines : .lines ∉ bs := by decide) (ring : .ring ∉ bs := by decide)
    (posting : .posting ∉ bs := by decide) (plan : .plan ∉ bs := by decide) : AccountsKept s t :=
  .event (fun u => (keeps u).accounts (frame u) lines ring posting plan) ht

/-- Every command but a posting completion keeps the accounts. -/
theorem AccountsKept.exec {s t : State} {i : Instr} (other : i ≠ .postingCompletion)
    (ht : exec i s = .next t) : AccountsKept s t := by
  cases i with
  | statusWrite n w => exact .event (fun u => .statusWritten u n w) ht
  | receiveEntry n j w => exact .event (fun u => .receive u n j w) ht
  | commandWordRead n => exact .readEvent (fun u => .readCommand u n) ht
  | acknowledge n w => exact .event (fun u => .acknowledge u n w) ht
  | processorHangUp n => exact .event (fun u => .processorCommand u n hangUpCode) ht
  | transmitPutWrite n w => exact .event (fun u => .writePut u n w) ht
  | transmitTakeWrite n w => exact .event (fun u => .writeTake u n w) ht
  | carrierDoubtExpiry n => exact .event (fun u => .doubtExpired u n) ht
  | politeTimeExpiry n =>
    exact .event (f := fun u => u.updLine n fun r => { r with forced := politeExpired r.forced })
      (fun _ => .updLine .of_eq) ht
  | clearingTimeExpiry n => exact .event (fun u => .clearingExpired u n) ht
  | modeLoad n w => exact .event (fun u => .writeSetting u n w) ht
  | hangRequest n w => exact .event (fun u => .writeSetting u n w) ht
  | sessionStatusRead n => exact .readEvent (fun u => .readStatus0 u n) ht
  | ringGoneExpiry n =>
    exact .event (fun u => (Keeps.ringGoneExpired u n).calm (.ringGoneExpired u n)) ht
  | answerTimerExpiry n => exact .event (fun u => .answerExpired u n) ht
  | signOnTimeExpiry k => exact .event (fun u => .signOnExpired u k) ht
  | requestServiceStart => exact .event (fun u => .startService u) ht
  | lookupCompletion => exact .event (fun u => .lookupCompleted u) ht
  | lockEnd j => exact .event (fun u => .of_frame (u.frame_updSlot j _)) ht
  | censusStart w => exact .event (fun u => .of_frame (u.frame_startCensus w)) ht
  | censusRead => exact .readEvent (fun u => .of_frame u.frame_readCensus) ht
  | stagingWrite j w => exact .event (fun u => .of_frame (u.frame_writeStaging j w)) ht
  | commitWrite w =>
    exact .frameEvent (fun u => Keeps.writeCommit u w) (fun u => u.frame_writeCommit w) ht
  | commitCompletion => exact .frameEvent Keeps.commitCompleted (fun u => u.frame_commitCompleted) ht
  | shortTick => exact .event (fun u => (Keeps.shortTicked u).calm (.shortTicked u)) ht
  | secondTick => exact .event (fun u => .secondTicked u) ht
  | graceExpiry n => exact .event (fun u => .graceExpired u n) ht
  | minuteTick => exact .event (fun u => .minuteTicked u) ht
  | idleLimit n => exact .event (fun u => .idleExpired u n) ht
  | clockMinuteWrite w =>
    exact .frameEvent (fun u => Keeps.writeClockMinute u w) (fun u => u.frame_writeClockMinute w) ht
  | clockDayWrite w =>
    exact .frameEvent (fun u => Keeps.writeClockDay u w) (fun u => u.frame_writeClockDay w) ht
  | bandStartWrite b w => exact .event (fun u => .of_frame (u.frame_writeBandStart b w)) ht
  | weekendWrite w => exact .event (fun u => .of_frame (u.frame_writeWeekend w)) ht
  | tariffWrite b v w => exact .event (fun u => .of_frame (u.frame_writeTariff b v w)) ht
  | permitWrite c w =>
    exact .frameEvent (fun u => Keeps.writePermit u c w) (fun u => u.frame_writePermit c w) ht
  | sweepMarker w => exact .event (fun u => .of_frame (u.frame_sweepMarked w)) ht
  | postingStart => exact .event (fun u => .of_frame u.frame_startPosting) ht
  | postingCompletion => exact absurd rfl other
  | windowTimeOut => exact .event (fun u => .of_frame u.frame_windowTimedOut) ht
  | tailWrite w => exact .event (fun u => .writeTail u w) ht
  | poll => exact .readEvent (fun u => .of_frame u.frame_readAttention) ht
  | nonSpecificDone | specificDone | rotateOnNonSpecificDone | rotateOnSpecificDone | setLowest
  | maskWrite | modeWrite => exact .event (fun u => .setAttention u _) ht
  | masterCycleArrival c =>
    cases hp : s.pins.porn with
    | true =>
      have running : Machine.exec (.masterCycleArrival c) s = Machine.event (fun s => s.arrive c) s :=
        if_pos hp
      exact .event (fun u => .arrive u c) (running.symm.trans ht)
    | false =>
      have held : Machine.exec (.masterCycleArrival c) s = .next (s.present c) :=
        if_neg (by simp [hp])
      cases held.symm.trans ht
      exact .of_frame (s.frame_present c)
  | masterCycleEnd => exact .event (fun u => .endCycle u) ht
  | writeRefused m o => exact .event (fun u => .of_frame (u.frame_writeRefused m o)) ht
  | latchRead => exact .readEvent (fun u => .of_frame u.frame_readLatch) ht
  | planStart w => exact .event (fun u => .writePlanStart u w) ht
  | planWord w => exact .event (fun u => .writePlanWord u w) ht
  | powerOnReset =>
    cases ht
    exact .poweredOn s
  | powerOnResetRelease straps p q =>
    cases ht
    exact .ite (fun _ => .refl s) fun _ => (AccountsKept.powerReleased s straps p q).trans (.refreshAttn _)
  | busReset => exact .event (fun u => .of_frame u.frame_busResetTaken) ht

/-- Every command keeps the claims and the pending records. -/
theorem ClaimsKept.exec {s t : State} {i : Instr} (ht : exec i s = .next t) : ClaimsKept s t := by
  by_cases posting : i = .postingCompletion
  · subst posting
    cases ht
    split
    · exact (ClaimsKept.postingCompleted s).trans (AccountsKept.refreshAttn _).toClaimsKept
    · exact .refl s
  · exact (AccountsKept.exec posting ht).toClaimsKept

/-- Every command keeps the ring, where no record waits for one without a capacity. -/
theorem RingSound.exec {s t : State} {i : Instr} (h : RingSound s)
    (room : s.journal.capacity = 0 → s.journal.queue = []) (ht : exec i s = .next t) :
    RingSound t := by
  by_cases posting : i = .postingCompletion
  · subst posting
    cases ht
    split
    · exact (AccountsKept.refreshAttn _).ring (h.postingCompleted room)
    · exact h
  · exact (AccountsKept.exec posting ht).ring h

/-- A step executes the next waiting command, or lets a microsecond pass. -/
theorem step_cases {s t : State} (h : step s = .next t) :
    (∃ i rest, exec i { s with pending := rest } = .next t) ∨ t = s.microsecond := by
  simp only [step] at h
  split at h
  · exact .inl ⟨_, _, h⟩
  · cases h
    exact .inr rfl

theorem ClaimsKept.step {s t : State} (h : step s = .next t) : ClaimsKept s t := by
  rcases step_cases h with ⟨i, rest, ht⟩ | rfl
  · have taken : ClaimsKept s { s with pending := rest } := ⟨id, fun _ => id, fun _ => id⟩
    exact taken.trans (.exec ht)
  · exact (AccountsKept.of_frame s.frame_microsecond).toClaimsKept

theorem RingSound.step {s t : State} (hs : RingSound s)
    (room : s.journal.capacity = 0 → s.journal.queue = []) (h : step s = .next t) : RingSound t := by
  rcases step_cases h with ⟨i, rest, ht⟩ | rfl
  · have taken : RingSound { s with pending := rest } := hs
    exact taken.exec room ht
  · exact (AccountsKept.of_frame s.frame_microsecond).ring hs

/-- Settles O59: a grant takes a claim where there is credit, a close gives the session's claim to its
record and a posting the record's to the ring, and every other change leaves claims, ring and records. -/
theorem everyStepKeepsTheJournalsAccounts : Obligations.EveryStepKeepsTheJournalsAccounts :=
  ⟨fun _ _ links bounded h => (ClaimsKept.step h).credit links bounded,
    fun _ _ bounded placed h => (RingSound.step ⟨bounded.unset, placed⟩ bounded.room h).2,
    fun _ _ links records h => (ClaimsKept.step h).records links records⟩

end Sys2Proof.Machine
end

section
/-!
PROOFS. The plan words (R101, R123, R165, R167, R173).
-/

namespace Sys2Proof.Machine

-- One proof after another: a default `by` argument waits for every earlier proof of the text.
set_option Elab.async false

/-! ## The ranges (R167) -/

theorem within_iff {v lo hi : Nat} : within v lo hi = true ↔ lo ≤ v ∧ v ≤ hi := by
  simp [within]

/-- The range of each plan word, in the numbers of R167's table. -/
theorem planWordOk_iff (k : Nat) (w : Word) : planWordOk k w = true ↔
    (k = 2 ∧ 1000 ≤ w.toNat)
    ∨ (k = 3 ∧ field w 0 3 ≤ 4 ∧ field w 8 6 ≤ 63)
    ∨ (k = 4 ∧ 1 ≤ field w 0 8 ∧ field w 0 8 ≤ 255)
    ∨ (k = 5 ∧ 5 ≤ field w 0 8 ∧ field w 0 8 ≤ 255)
    ∨ (k = 6 ∧ 5 ≤ field w 0 8 ∧ field w 0 8 ≤ 60 ∧ 4 ≤ field w 8 8 ∧ field w 8 8 ≤ 30)
    ∨ (k = 7 ∧ 30 ≤ w.toNat ∧ w.toNat ≤ 600)
    ∨ (k = 8 ∧ 1 ≤ field w 0 4 ∧ field w 0 4 ≤ 15 ∧ 1 ≤ field w 4 12 ∧ field w 4 12 ≤ 1440)
    ∨ (k = 9 ∧ 1 ≤ field w 0 8 ∧ field w 8 8 ≤ 120 ∧ field w 0 8 < field w 8 8)
    ∨ (k = 10 ∧ 1 ≤ field w 0 6 ∧ field w 0 6 ≤ 60 ∧ 10 ≤ field w 6 10 ∧ field w 6 10 ≤ 600)
    ∨ k = 11 := by
  have word := w.isLt
  unfold planWordOk
  split
  case h_11 => simp_all
  all_goals simp only [Bool.and_eq_true, within_iff, decide_eq_true_eq, Nat.reduceEqDiff, false_and,
    false_or, or_false, true_and, or_true]
  all_goals omega

/-! ## What a plan word does (R167) -/

/-- A plan word out of range breaks the plan out of its planning. -/
theorem State.writePlanWord_broken {s : State} {k : Nat} {w : Word} (hk : s.plan.state = .planning k)
    (h : ¬ planWordOk k w = true) : s.writePlanWord w =
      (s.setPlan { s.plan with state := .unplanned }).give (.adminPlan .broken) := by
  simp only [State.writePlanWord, hk, if_neg h]

/-- A plan word in range before the last is applied, and the next word follows. -/
theorem State.writePlanWord_next {s : State} {k : Nat} {w : Word} (hk : s.plan.state = .planning k)
    (h : planWordOk k w = true) (more : k ≠ 11) : s.writePlanWord w =
      (s.applyPlanWord k w).setPlan { (s.applyPlanWord k w).plan with state := .planning (k + 1) } := by
  simp only [State.writePlanWord, hk, if_pos h, if_neg more]

/-- Of the plan words before the last, all but words 2 and 3 change the plan's values alone. -/
theorem State.writePlanWord_value {s : State} {k : Nat} {w : Word} (hk : s.plan.state = .planning k)
    (h : planWordOk k w = true) (low : 4 ≤ k) (high : k ≤ 10) : s.writePlanWord w =
      s.setPlan { s.plan.applyWord k w with state := .planning (k + 1) } := by
  rw [State.writePlanWord_next hk h (by omega), State.applyPlanWord_of_plan s w (by omega) (by omega)]
  rfl

/-- Plan word 11 makes the plan PLANNED; while no one rings, no grant follows. -/
theorem State.writePlanWord_last {s : State} {w : Word} (hk : s.plan.state = .planning 11)
    (quiet : NoOneRings s) : s.writePlanWord w = (s.setPlan { s.plan with
      state := .planned, warnThreshold := w.toNat }).give (.adminPlan .done) := by
  have granted : s.writePlanWord w = State.evaluateGrants ((s.setPlan { s.plan with
      state := .planned, warnThreshold := w.toNat }).give (.adminPlan .done)) := by
    simp only [State.writePlanWord, hk]
    rfl
  exact granted.trans (State.evaluateGrants_of_noOneRings quiet)

/-- A plan word in another plan state is refused. -/
theorem State.writePlanWord_refused {s : State} {w : Word}
    (h : s.plan.state = .unplanned ∨ s.plan.state = .planned) :
    s.writePlanWord w = s.refuse .processor planWordOffset := by
  rcases h with h | h <;> simp only [State.writePlanWord, h]

theorem State.frame_planGiven (s : State) (p : Plan) (e : Notice) :
    SameBut [.plan, .queues] s ((s.setPlan p).give e) :=
  ((s.frame_setPlan p).mono (by decide)).step (State.frame_give _ e)

theorem State.frame_divisorSet (s : State) (d : Option Nat) (p : Plan) : SameBut [.plan, .timebase] s
    (State.setPlan { s with meter := { s.meter with divisor := d } } p) := by
  intro b hb; cases b <;> first | exact absurd (by decide) hb | simp [Block.same, State.setPlan]

/-- Settles O51: the words out of range, words 2 and 3, words 4 to 10, word 11, and the other states. -/
theorem planWordsFollowInOrder : Obligations.PlanWordsFollowInOrder := by
  intro w s running field ok
  have fits : ∀ k, planWordOk k w = true ↔ ok k := fun k => planWordOk_iff k w
  have write : ∀ {t : State} {post : State → Prop}, s.writePlanWord w = t → post t.refreshAttn →
      Completes (.planWord w) s post := fun ht hp =>
    .of_event (fun s => s.writePlanWord w) rfl running (ht.symm ▸ hp)
  have attn := State.frame_refreshAttn
  refine ⟨fun k hk out => write (State.writePlanWord_broken hk (mt (fits k).mp out)) ?_,
    fun hk hok => write (State.writePlanWord_next hk ((fits 2).mpr hok) (by decide)) ?_,
    fun hk hok => write (State.writePlanWord_next hk ((fits 3).mpr hok) (by decide)) ?_,
    fun k low high hk hok => write (State.writePlanWord_value hk ((fits k).mpr hok) low high) ?_,
    fun hk quiet => write (State.writePlanWord_last hk quiet) ?_,
    fun other => write (State.writePlanWord_refused other) (State.latched_refuse s _ _).refreshAttn⟩
  · exact ⟨rfl, State.givenOnly_give _ (.adminPlan .broken), (s.frame_planGiven _ _).step (attn _)⟩
  · exact ⟨rfl, rfl, (s.frame_divisorSet _ _).step (attn _)⟩
  · rw [State.applyPlanWord_three w hk]
    have frame := ((s.frame_capacitySet (64 <<< field 0 3) (field 8 6)).mono
      (bs := [.plan, .ring]) (by decide)).step
      (State.frame_setPlan _ { s.plan with state := .planning (3 + 1) })
    refine ⟨rfl, ?_, frame.step (attn _)⟩
    rw [← Nat.shiftLeft_eq]
    rfl
  · refine ⟨(s.frame_setPlan _).step (attn _), ?_, ?_, ?_, ?_, ?_, ?_, ?_⟩ <;> rintro rfl <;> rfl
  · exact ⟨rfl, State.givenOnly_give _ (.adminPlan .done), (s.frame_planGiven _ _).step (attn _)⟩

end Sys2Proof.Machine
end

section
/-!
SUPPORT. The bands: a reason judged on one session, BAND_BARRED judged on every session of a walk, and the
band that the clock and the tables give (R105, R107, R113, R115).
-/

namespace Sys2Proof.Machine

-- One proof after another: a default `by` argument waits for every earlier proof of the text.
set_option Elab.async false

/-! ## One reason judged (R113) -/

section
variable {s : State} {n : LineNo} {x : Session}

/-- A reason judged is put in the set or taken out of it; a set left empty by that ends the grace. -/
theorem State.judgeReason_eq (s : State) (n : LineNo) (g : GraceReason) (due : Bool) :
    s.judgeReason n g due =
      if due then s.putReason n g true else (s.putReason n g false).endEmptyGrace n := rfl

theorem State.session_judgeReason (g : GraceReason) (due : Bool) (h : s.session n = some x) :
    (s.judgeReason n g due).session n = some { x with
      grace := graceAfter s.plan.graceSeconds x.grace g due } := by
  have put := s.session_putReason g due h
  cases due
  · rw [State.judgeReason_eq, if_neg Bool.false_ne_true, State.endEmptyGrace,
      State.session_updSession_same, put]
    cases x.grace with
    | none => cases g <;> rfl
    | some c =>
      cases g
      · cases hb : c.bandBarred <;> simp [graceAfter, Grace.put, Grace.noReason, hb]
      · cases hb : c.noBudget <;> simp [graceAfter, Grace.put, Grace.noReason, hb]
  · rw [State.judgeReason_eq, if_pos rfl, put]
    cases x.grace <;> cases g <;> simp [graceAfter, Grace.put, Grace.start]

theorem State.otherSessions_judgeReason (s : State) (n : LineNo) (g : GraceReason) (due : Bool) :
    OtherSessions n s (s.judgeReason n g due) := by
  cases due
  · exact fun m hm => (State.session_updSession_other _ _ hm).trans
      (s.otherSessions_putReason n g false m hm)
  · exact s.otherSessions_putReason n g true

theorem State.queues_judgeReason (g : GraceReason) (due : Bool) (h : s.session n = some x) :
    (s.judgeReason n g due).attention.queue 5 = warnLine n (g.warnings due x.grace) (s.attention.queue 5)
      ∧ OtherQueues 5 s (s.judgeReason n g due) := by
  cases due
  · exact ⟨rfl, fun _ _ => rfl⟩
  · exact s.queues_addReason g h

theorem State.visited_judgeReason (g : GraceReason) (due : Bool) (h : s.session n = some x) :
    Visited n { x with grace := graceAfter s.plan.graceSeconds x.grace g due }
      (g.warnings due x.grace) s (s.judgeReason n g due) :=
  have ⟨warned, queues⟩ := s.queues_judgeReason g due h
  ⟨s.session_judgeReason g due h, s.otherSessions_judgeReason n g due, warned, queues,
    s.frame_judgeReason n g due⟩

end

/-! ## BAND_BARRED judged on every session (R107, R115) -/

/-- A session after BAND_BARRED was judged on those of the classes that `on` picks. -/
def Session.bandJudged (x : Session) (on : AccountClass → Bool) (s : State) : Session :=
  match s.slot x.slot with
  | none => x
  | some a =>
    if a.cls ≠ .operator ∧ on a.cls then
      { x with grace := graceAfter s.plan.graceSeconds x.grace .bandBarred (!s.mayHold a.cls) }
    else x

/-- The warnings of a session at such a judgement. -/
def Session.bandWarnings (x : Session) (on : AccountClass → Bool) (s : State) : List WarningKind :=
  match s.slot x.slot with
  | none => []
  | some a =>
    if a.cls ≠ .operator ∧ on a.cls then GraceReason.bandBarred.warnings (!s.mayHold a.cls) x.grace
    else []

theorem State.judgeBand_of_slot {s : State} {n : LineNo} {i : SlotNo} {a : Account}
    (h : s.slot i = some a) (metered : a.cls ≠ .operator) :
    s.judgeBand n i = s.judgeReason n .bandBarred (!s.mayHold a.cls) := by
  have cls : s.classOf i = some a.cls := by simp [State.classOf, h]
  simp only [State.judgeBand, cls]

theorem State.judgeBand_operator {s : State} {n : LineNo} {i : SlotNo} {a : Account}
    (h : s.slot i = some a) (operator : a.cls = .operator) : s.judgeBand n i = s := by
  simp [State.judgeBand, State.classOf, h, operator]

theorem State.judgeBand_empty {s : State} {n : LineNo} {i : SlotNo} (h : s.slot i = none) :
    s.judgeBand n i = s := by
  simp [State.judgeBand, State.classOf, h]

/-- The visit of a session in a walk that judges the classes that `on` picks. -/
theorem State.visited_judgeBand {s : State} {n : LineNo} {x : Session} (on : AccountClass → Bool)
    (h : s.session n = some x) : Visited n (x.bandJudged on s) (x.bandWarnings on s) s
      (if (s.classOf x.slot).any on then s.judgeBand n x.slot else s) := by
  cases ha : s.slot x.slot with
  | none =>
    rw [State.judgeBand_empty ha, ite_self]
    simpa only [Session.bandJudged, Session.bandWarnings, ha] using Visited.refl h
  | some a =>
    have picked : (s.classOf x.slot).any on = on a.cls := by simp [State.classOf, ha]
    simp only [picked, Session.bandJudged, Session.bandWarnings, ha]
    by_cases operator : a.cls = .operator
    · rw [State.judgeBand_operator ha operator, ite_self]
      simpa only [operator, ne_eq, not_true_eq_false, false_and, if_false] using Visited.refl h
    · rw [State.judgeBand_of_slot ha operator]
      cases hon : on a.cls
      · simpa [hon] using Visited.refl h
      · simpa [hon, operator] using State.visited_judgeReason .bandBarred _ h

/-- What a session may hold is read from the band and the permits. -/
theorem SameBut.mayHold {bs : List Block} {s t : State} (h : SameBut bs s t)
    (band : .band ∉ bs := by decide) (tables : .tables ∉ bs := by decide) (c : AccountClass) :
    t.mayHold c = s.mayHold c := by
  have band : t.meter.band = s.meter.band := h .band band
  obtain ⟨-, -, -, permits⟩ := h .tables tables
  simp only [State.mayHold, State.permit, band, permits]

/-- A judgement on a session is the same wherever a walk has left the part. -/
theorem SameBut.bandJudged {s t : State} (h : SameBut [.sessions, .queues] s t) (x : Session)
    (on : AccountClass → Bool) :
    x.bandJudged on t = x.bandJudged on s ∧ x.bandWarnings on t = x.bandWarnings on s := by
  have plan : t.plan = s.plan := h .plan (by decide)
  simp only [Session.bandJudged, Session.bandWarnings, h.slot (by decide), plan, h.mayHold]
  exact ⟨trivial, trivial⟩

/-- A walk over every line judges each session and warns the newly barred ones. -/
theorem State.walked_judgeBand (s : State) (on : AccountClass → Bool) :
    Walked (fun _ x => x.bandJudged on s) (fun _ x => x.bandWarnings on s) (List.finRange 64) s
      (s.forSessions fun n x t =>
        if (t.classOf x.slot).any on then t.judgeBand n x.slot else t) :=
  State.forSessions_walked fun n x t ht hx => by
    obtain ⟨after, warnings⟩ := ht.bandJudged x on
    rw [← after, ← warnings]
    exact t.visited_judgeBand on hx

/-- The newly barred lines are those that a judgement warns. -/
theorem State.newlyBarred_warnings {s t u : State} (on : AccountClass → Bool) (n : LineNo)
    (slots : ∀ i, u.slot i = s.slot i) (sessions : ∀ m, u.session m = s.session m)
    (holds : ∀ c, t.mayHold c = u.mayHold c) : (if newlyBarred on s t n then [.bandBarred] else []) =
      (u.session n).elim [] fun x => x.bandWarnings on u := by
  rw [sessions]
  cases hx : s.session n with
  | none => simp [newlyBarred, hx]
  | some x =>
    cases ha : s.slot x.slot with
    | none => simp [newlyBarred, hx, ha, Session.bandWarnings, slots]
    | some a =>
      have known : (x.grace.any fun c => c.has .bandBarred) = x.grace.any fun c => c.bandBarred := rfl
      simp only [newlyBarred, hx, ha, Option.elim_some, Session.bandWarnings, slots,
        GraceReason.warnings, known, holds, GraceReason.warning]
      by_cases operator : a.cls = .operator <;> cases on a.cls <;> simp [operator]

/-- The walk as the statements have it: `s` the part before the change that brought it about, and `u` the
part it began with. -/
theorem BandJudged.of_walked {bs : List Block} {s u t : State} {on : AccountClass → Bool}
    (before : SameBut bs s u) (slots : .slots ∉ bs := by decide) (sessions : .sessions ∉ bs := by decide)
    (queues : .queues ∉ bs := by decide) (plan : .plan ∉ bs := by decide)
    (h : Walked (fun _ x => x.bandJudged on u) (fun _ x => x.bandWarnings on u) (List.finRange 64) u t) :
    BandJudged on s t := by
  have slot := before.slot slots
  have session := before.session sessions
  have queue := before.queue queues
  have plan : u.plan = s.plan := before .plan plan
  have holds := h.frame.mayHold
  refine ⟨fun n => ?_, ?_, fun k hk => (h.queues k hk).trans (queue k)⟩
  · rw [h.sessions, if_pos (List.mem_finRange n), session]
    refine congrArg (Option.map · (s.session n)) (funext fun x => ?_)
    simp only [Session.bandJudged, slot, plan, holds] <;> rfl
  · rw [h.warned, warnLines_eq_foldl, queue]
    simp only [State.newlyBarred_warnings on _ slot session holds]

/-- Judging no session leaves all as it is. -/
theorem BandJudged.none {s t : State} {on : AccountClass → Bool} (off : ∀ c, on c = false)
    (sessions : ∀ n, t.session n = s.session n)
    (queues : ∀ k, t.attention.queue k = s.attention.queue k) : BandJudged on s t := by
  refine ⟨fun n => ?_, ?_, fun k _ => queues k⟩
  · rw [sessions]
    cases hx : s.session n with
    | none => rfl
    | some x => cases ha : s.slot x.slot <;> simp [off, ha]
  · have quiet : ∀ n, newlyBarred on s t n = false := by
      intro n
      simp only [newlyBarred, off]
      split
      · rfl
      · split <;> simp
    simp only [quiet, Bool.false_eq_true, if_false, warnLines_nil, queues]

/-! ## The band that the clock and the tables give (R105) -/

/-- A band of `bs` that meets `p`, none of those that do being later: the higher number wins among equal
starts. -/
structure Meter.Latest (m : Meter) (p : BandNo → Bool) (bs : List BandNo) (b : BandNo) : Prop where
  mem : b ∈ bs
  meets : p b = true
  last : ∀ c ∈ bs, p c = true → m.bandStart c < m.bandStart b ∨ m.bandStart c = m.bandStart b ∧ c ≤ b

theorem Meter.Latest.unique {m : Meter} {p : BandNo → Bool} {bs : List BandNo} {b c : BandNo}
    (hb : m.Latest p bs b) (hc : m.Latest p bs c) : b = c := by
  rcases hb.last c hc.mem hc.meets with later | ⟨same, after⟩ <;>
    rcases hc.last b hb.mem hb.meets with later' | ⟨same', after'⟩
  · omega
  · omega
  · omega
  · exact le_antisymm after' after

/-- The latest band among those seen so far that meet `p`, if any does. -/
def Meter.LatestOf (m : Meter) (p : BandNo → Bool) (bs : List BandNo) (best : Option BandNo) : Prop :=
  best.elim (∀ b ∈ bs, p b = false) (m.Latest p bs)

theorem Meter.latestOf_foldl (m : Meter) (p : BandNo → Bool) {bs : List BandNo}
    (rising : bs.Pairwise (· < ·)) : m.LatestOf p bs (bs.foldl (fun best b =>
      if p b then
        match best with
        | none => some b
        | some c => if m.bandStart c ≤ m.bandStart b then some b else some c
      else best) none) := by
  induction bs using List.reverseRecOn with
  | nil => simp [Meter.LatestOf]
  | append_singleton bs b ih =>
    obtain ⟨rising, -, above⟩ := List.pairwise_append.mp rising
    have ih := ih rising
    have above : ∀ c ∈ bs, c < b := fun c hc => above c hc b (List.mem_singleton_self b)
    rw [List.foldl_append, List.foldl_cons, List.foldl_nil]
    generalize bs.foldl _ none = best at ih ⊢
    cases hp : p b
    · cases best with
      | none =>
        intro c hc
        rcases List.mem_append.mp hc with hc | hc
        · exact ih c hc
        · rw [List.mem_singleton.mp hc, hp]
      | some c =>
        obtain ⟨mem, meets, last⟩ := ih
        refine ⟨List.mem_append_left _ mem, meets, fun d hd hpd => ?_⟩
        rcases List.mem_append.mp hd with hd | hd
        · exact last d hd hpd
        · rw [List.mem_singleton.mp hd, hp] at hpd
          cases hpd
    · cases best with
      | none =>
        refine ⟨by simp, hp, fun d hd hpd => ?_⟩
        rcases List.mem_append.mp hd with hd | hd
        · rw [ih d hd] at hpd
          cases hpd
        · exact .inr (by simp [List.mem_singleton.mp hd])
      | some c =>
        obtain ⟨mem, meets, last⟩ := ih
        have := above c mem
        simp only [if_true]
        split
        · refine ⟨by simp, hp, fun d hd hpd => ?_⟩
          rcases List.mem_append.mp hd with hd | hd
          · have := last d hd hpd
            rcases Nat.lt_or_ge (m.bandStart d) (m.bandStart b) with later | _
            · exact .inl later
            · exact .inr ⟨by omega, le_of_lt (above d hd)⟩
          · exact .inr (by simp [List.mem_singleton.mp hd])
        · refine ⟨List.mem_append_left _ mem, meets, fun d hd hpd => ?_⟩
          rcases List.mem_append.mp hd with hd | hd
          · exact last d hd hpd
          · rw [List.mem_singleton.mp hd]
            omega

theorem Meter.latestOf_greatestStart (m : Meter) (p : BandNo → Bool) :
    m.LatestOf p (List.finRange 4) (m.greatestStart p) :=
  m.latestOf_foldl p (by decide)

theorem Meter.greatestStart_eq {m : Meter} {p : BandNo → Bool} {b : BandNo} (meets : p b = true)
    (last : ∀ c, p c = true →
      m.bandStart c < m.bandStart b ∨ m.bandStart c = m.bandStart b ∧ c ≤ b) :
    m.greatestStart p = some b := by
  have found := m.latestOf_greatestStart p
  have latest : m.Latest p (List.finRange 4) b := ⟨List.mem_finRange b, meets, fun c _ => last c⟩
  cases hg : m.greatestStart p with
  | none =>
    rw [hg] at found
    rw [found b (List.mem_finRange b)] at meets
    cases meets
  | some c =>
    rw [hg] at found
    rw [latest.unique found]

theorem Meter.greatestStart_none {m : Meter} {p : BandNo → Bool} (h : ∀ c, p c = false) :
    m.greatestStart p = none := by
  have found := m.latestOf_greatestStart p
  cases hg : m.greatestStart p with
  | none => rfl
  | some c =>
    rw [hg] at found
    have meets := found.meets
    rw [h] at meets
    cases meets

theorem Meter.evaluateBand_weekend {m : Meter} (h : m.weekend.getLsbD m.weekday = true) :
    m.evaluateBand = 3 := if_pos h

/-- On a weekday the latest band that has begun runs. -/
theorem Meter.evaluateBand_begun {m : Meter} {b : BandNo} (h : m.weekend.getLsbD m.weekday = false)
    (begun : m.bandStart b ≤ m.minute) (last : ∀ c, m.bandStart c ≤ m.minute →
      m.bandStart c < m.bandStart b ∨ m.bandStart c = m.bandStart b ∧ c ≤ b) : m.evaluateBand = b := by
  have found : m.greatestStart (fun b => m.bandStart b ≤ m.minute) = some b :=
    Meter.greatestStart_eq (decide_eq_true begun) fun c hc => last c (of_decide_eq_true hc)
  rw [Meter.evaluateBand, if_neg (by simp [h]), found]

/-- On a weekday before the first start the latest band of all still runs. -/
theorem Meter.evaluateBand_before {m : Meter} {b : BandNo} (h : m.weekend.getLsbD m.weekday = false)
    (before : ∀ c, m.minute < m.bandStart c)
    (last : ∀ c, m.bandStart c < m.bandStart b ∨ m.bandStart c = m.bandStart b ∧ c ≤ b) :
    m.evaluateBand = b := by
  have begun : m.greatestStart (fun b => m.bandStart b ≤ m.minute) = none :=
    Meter.greatestStart_none fun c => decide_eq_false (Nat.not_le.mpr (before c))
  have found : m.greatestStart (fun _ => true) = some b :=
    Meter.greatestStart_eq rfl fun c _ => last c
  rw [Meter.evaluateBand, if_neg (by simp [h]), begun, found]
  rfl

/-! ## The band re-evaluated (R105, R115) -/

theorem SameBut.evaluateBand {bs : List Block} {s t : State} (h : SameBut bs s t)
    (clock : .clock ∉ bs := by decide) (tables : .tables ∉ bs := by decide) :
    t.meter.evaluateBand = s.meter.evaluateBand := by
  obtain ⟨minute, weekday, -⟩ := h .clock clock
  obtain ⟨-, starts, weekend, -⟩ := h .tables tables
  simp only [Meter.evaluateBand, Meter.greatestStart, Meter.bandStart, minute, weekday, starts, weekend] <;>
    rfl

theorem State.reevaluateBand_same {s : State} (h : s.meter.evaluateBand = s.meter.band) :
    s.reevaluateBand = s := if_pos h

/-- The part in the band that its clock and tables give. -/
def State.rebanded (s : State) : State :=
  { s with meter := { s.meter with band := s.meter.evaluateBand } }

theorem State.frame_rebanded (s : State) : SameBut [.band] s s.rebanded := by
  intro b hb; cases b <;> first | exact absurd (by decide) hb | simp [Block.same, State.rebanded]

theorem State.walked_reevaluateBand {s : State} (h : ¬ s.meter.evaluateBand = s.meter.band) :
    Walked (fun _ x => x.bandJudged (fun _ => true) s.rebanded)
      (fun _ x => x.bandWarnings (fun _ => true) s.rebanded) (List.finRange 64) s.rebanded
      s.reevaluateBand := by
  have every : s.reevaluateBand = s.rebanded.forSessions fun n x t =>
      if (t.classOf x.slot).any (fun _ => true) then t.judgeBand n x.slot else t := by
    rw [State.reevaluateBand, if_neg h]
    refine congrArg s.rebanded.forSessions (funext fun n => funext fun x => funext fun t => ?_)
    cases ha : t.slot x.slot <;> simp [State.judgeBand, State.classOf, ha]
  rw [every]
  exact s.rebanded.walked_judgeBand _

theorem State.band_reevaluateBand (s : State) :
    s.reevaluateBand.meter.band = s.meter.evaluateBand := by
  by_cases h : s.meter.evaluateBand = s.meter.band
  · rw [State.reevaluateBand_same h, h]
  · exact (State.walked_reevaluateBand h).frame .band (by decide)

/-- A part re-evaluates its band after a change to its clock: every session is judged where the band
changed. -/
theorem State.bandJudged_reevaluateBand {bs : List Block} {s u : State} (before : SameBut bs s u)
    (slots : .slots ∉ bs := by decide) (sessions : .sessions ∉ bs := by decide)
    (queues : .queues ∉ bs := by decide) (plan : .plan ∉ bs := by decide)
    (band : .band ∉ bs := by decide) :
    BandJudged (fun _ => decide (u.reevaluateBand.meter.band ≠ s.meter.band)) s u.reevaluateBand := by
  have band : u.meter.band = s.meter.band := before .band band
  rw [u.band_reevaluateBand]
  by_cases h : u.meter.evaluateBand = u.meter.band
  · refine .none (fun _ => by simp [h, band]) (fun n => ?_) fun k => ?_
    · rw [State.reevaluateBand_same h]
      exact before.session sessions n
    · rw [State.reevaluateBand_same h]
      exact before.queue queues k
  · have changed : (fun _ : AccountClass => decide (u.meter.evaluateBand ≠ s.meter.band)) =
        fun _ => true := funext fun _ => by simpa [band] using h
    rw [changed]
    have rebanded : SameBut (.band :: bs) s u.rebanded :=
      (before.mono (List.subset_cons_self _ _)).step u.frame_rebanded (by simp)
    exact .of_walked (bs := .band :: bs) rebanded (by simpa using slots) (by simpa using sessions)
      (by simpa using queues) (by simpa using plan) (State.walked_reevaluateBand h)

end Sys2Proof.Machine
end

section
/-!
PROOFS. The writes of the clock and of the Meter Unit's tables (R103 to R107, R115).
-/

namespace Sys2Proof.Machine

-- One proof after another: a default `by` argument waits for every earlier proof of the text.
set_option Elab.async false

theorem BandJudged.refreshAttn {on : AccountClass → Bool} {s t : State} (h : BandJudged on s t) :
    BandJudged on s t.refreshAttn := h

/-! ## The clock (R103) -/

theorem State.frame_clockSet (s : State) (minute weekday : Nat) (day : Word) : SameBut [.clock] s
    { s with meter := { s.meter with minute := minute, weekday := weekday, day := day } } := by
  intro b hb; cases b <;> first | exact absurd (by decide) hb | simp [Block.same]

section
variable {s u : State}

/-- A part whose clock was set, and its band re-evaluated by that clock. -/
theorem State.clock_reevaluateBand : u.reevaluateBand.meter.minute = u.meter.minute
    ∧ u.reevaluateBand.meter.weekday = u.meter.weekday ∧ u.reevaluateBand.meter.day = u.meter.day :=
  u.frame_reevaluateBand .clock (by decide)

theorem State.band_follows : u.reevaluateBand.meter.band = u.reevaluateBand.meter.evaluateBand :=
  u.band_reevaluateBand.trans u.frame_reevaluateBand.evaluateBand.symm

theorem SameBut.reevaluateBand (clock : SameBut [.clock] s u) :
    SameBut [.clock, .band, .sessions, .queues] s u.reevaluateBand :=
  (clock.mono (by decide)).step u.frame_reevaluateBand

end

theorem State.writeClockMinute_accepted {s : State} {w : Word} (minute : clockMinuteField w < 1440)
    (weekday : clockWeekdayField w < 7) : s.writeClockMinute w = State.reevaluateBand
      { s with meter := { s.meter with
        minute := clockMinuteField w, weekday := clockWeekdayField w, day := s.meter.day } } :=
  if_pos ⟨minute, weekday⟩

theorem State.writeClockMinute_refused {s : State} {w : Word}
    (out : 1440 ≤ clockMinuteField w ∨ 7 ≤ clockWeekdayField w) :
    s.writeClockMinute w = s.refuse .processor clockMinuteOffset := if_neg (by omega)

/-- Settles O46: the latest band by the clock, and the two clock cells, each by the band it leads to. -/
theorem clockWritesReevaluateTheBand : Obligations.ClockWritesReevaluateTheBand := by
  refine ⟨fun m b => ⟨Meter.evaluateBand_weekend, fun weekday =>
    ⟨Meter.evaluateBand_begun weekday, Meter.evaluateBand_before weekday⟩⟩, fun w s running =>
    ⟨fun minute weekday => ?_, fun out => ?_, ?_⟩⟩
  · refine .of_event (fun s => s.writeClockMinute w) rfl running ?_
    rw [State.writeClockMinute_accepted minute weekday]
    have clock := s.frame_clockSet (clockMinuteField w) (clockWeekdayField w) s.meter.day
    obtain ⟨minute', weekday', day'⟩ := State.clock_reevaluateBand
      (u := { s with meter := { s.meter with
        minute := clockMinuteField w, weekday := clockWeekdayField w, day := s.meter.day } })
    exact ⟨minute', weekday', day', State.band_follows,
      (State.bandJudged_reevaluateBand clock).refreshAttn,
      clock.reevaluateBand.step (State.frame_refreshAttn _)⟩
  · exact .refused (f := fun s => s.writeClockMinute w) rfl running (State.writeClockMinute_refused out)
  · refine .of_event (fun s => s.writeClockDay w) rfl running ?_
    have clock := s.frame_clockSet s.meter.minute s.meter.weekday w
    obtain ⟨minute, weekday, day⟩ := State.clock_reevaluateBand
      (u := { s with meter := { s.meter with day := w } })
    exact ⟨day, minute, weekday, State.band_follows, (State.bandJudged_reevaluateBand clock).refreshAttn,
      clock.reevaluateBand.step (State.frame_refreshAttn _)⟩

/-! ## The tables (R104, R106, R107) -/

section
variable {s : State} {w : Word}

theorem State.frame_bandStartsSet (s : State) (v : Vector Nat 4) : SameBut [.tables] s
    { s with meter := { s.meter with bandStarts := v } } := by
  intro b hb; cases b <;> first | exact absurd (by decide) hb | simp [Block.same]

theorem State.frame_tariffsSet (s : State) (v : Vector Nat 16) : SameBut [.tables] s
    { s with meter := { s.meter with tariffs := v } } := by
  intro b hb; cases b <;> first | exact absurd (by decide) hb | simp [Block.same]

theorem State.frame_writeWeekend_tables (s : State) (w : Word) :
    SameBut [.tables] s (s.writeWeekend w) := by
  intro b hb; cases b <;> first | exact absurd (by decide) hb | simp [Block.same, State.writeWeekend]

theorem State.writeBandStart_accepted {b : BandNo} (h : field w 0 11 < 1440) : s.writeBandStart b w =
    { s with meter := { s.meter with bandStarts := s.meter.bandStarts.set b (field w 0 11) } } :=
  if_pos h

theorem State.writeBandStart_refused {b : BandNo} (h : 1440 ≤ field w 0 11) :
    s.writeBandStart b w = s.refuse .processor (bandStartOffset b) := if_neg (Nat.not_lt.mpr h)

theorem State.writeTariff_accepted {b : BandNo} {v : SpeedNo} (h : field w 0 12 ≤ 3600) :
    s.writeTariff b v w = { s with meter := { s.meter with
      tariffs := s.meter.tariffs.set ((4 * b.val + v.val) % 16) (field w 0 12)
        (Nat.mod_lt _ (by decide)) } } := if_pos h

theorem State.writeTariff_refused {b : BandNo} {v : SpeedNo} (h : 3600 < field w 0 12) :
    s.writeTariff b v w = s.refuse .processor (tariffOffset b v) := if_neg (Nat.not_le.mpr h)

/-- One of the four starts set. -/
theorem getElem_set_band (v : Vector Nat 4) (b c : BandNo) (x : Nat) :
    (v.set b x)[c] = if c = b then x else v[c] := by
  simp only [Fin.getElem_fin, Vector.getElem_set, Fin.ext_iff, eq_comm]

/-- One of the sixteen rates set: a band and a speed class have a place of their own. -/
theorem getElem_set_rate (v : Vector Nat 16) (b c : BandNo) (u t : SpeedNo) (x : Nat) :
    (v.set ((4 * b.val + t.val) % 16) x (Nat.mod_lt _ (by decide)))[
        (⟨(4 * c.val + u.val) % 16, Nat.mod_lt _ (by decide)⟩ : Fin 16)] =
      if c = b ∧ u = t then x else
        v[(⟨(4 * c.val + u.val) % 16, Nat.mod_lt _ (by decide)⟩ : Fin 16)] := by
  have place : (4 * b.val + t.val) % 16 = (4 * c.val + u.val) % 16 ↔ c = b ∧ u = t := by
    have := b.isLt; have := c.isLt; have := t.isLt; have := u.isLt
    rw [Fin.ext_iff, Fin.ext_iff]
    omega
  simp only [Fin.getElem_fin, Vector.getElem_set, place]

/-- The permit cells with one written. -/
def State.permitSet (s : State) (c : AccountClass) (w : Word) : State :=
  { s with meter := { s.meter with
    permits := s.meter.permits.set (quarter (classCode c)) (permitField w) } }

theorem State.frame_permitSet (s : State) (c : AccountClass) (w : Word) :
    SameBut [.tables] s (s.permitSet c w) := by
  intro b hb; cases b <;> first | exact absurd (by decide) hb | simp [Block.same, State.permitSet]

theorem State.permit_permitSet (s : State) (c d : AccountClass) (w : Word) :
    (s.permitSet c w).permit d = if d = c then permitField w else s.permit d := by
  have place : (quarter (classCode c)).val = (quarter (classCode d)).val ↔ d = c := by
    cases c <;> cases d <;> decide
  simp only [State.permit, State.permitSet, Fin.getElem_fin, Vector.getElem_set, place]

/-- The walk of a permit write judges the sessions of its class. -/
theorem State.writePermit_eq (s : State) (c : AccountClass) (w : Word) :
    s.writePermit c w = (s.permitSet c w).forSessions fun n x t =>
      if (t.classOf x.slot).any (fun d => decide (d = c)) then t.judgeBand n x.slot else t := by
  refine congrArg (s.permitSet c w).forSessions (funext fun n => funext fun x => funext fun t => ?_)
  cases t.classOf x.slot <;> simp

end

/-- Settles O47: the cells read back, the refusals, and the walk of a permit write. -/
theorem tableWritesTakeEffect : Obligations.TableWritesTakeEffect := by
  have attn := State.frame_refreshAttn
  refine ⟨fun b w s running => ⟨fun h => ?_, fun h => ?_, ?_⟩,
    fun b v w s running => ⟨fun h => ?_, fun h => ?_⟩, fun c w s running => ?_⟩
  · refine .of_event (fun s => s.writeBandStart b w) rfl running ?_
    rw [State.writeBandStart_accepted h]
    exact ⟨fun c => getElem_set_band _ b c _, rfl, rfl, rfl, (s.frame_bandStartsSet _).step (attn _)⟩
  · exact .refused (f := fun s => s.writeBandStart b w) rfl running (State.writeBandStart_refused h)
  · exact .of_event (fun s => s.writeWeekend w) rfl running
      ⟨rfl, rfl, rfl, rfl, (s.frame_writeWeekend_tables w).step (attn _)⟩
  · refine .of_event (fun s => s.writeTariff b v w) rfl running ?_
    rw [State.writeTariff_accepted h]
    exact ⟨fun c u => getElem_set_rate _ b c u v _, rfl, rfl, rfl,
      (s.frame_tariffsSet _).step (attn _)⟩
  · exact .refused (f := fun s => s.writeTariff b v w) rfl running (State.writeTariff_refused h)
  · refine .of_event (fun s => s.writePermit c w) rfl running ?_
    rw [State.writePermit_eq]
    have set := s.frame_permitSet c w
    have walked := (s.permitSet c w).walked_judgeBand fun d => decide (d = c)
    generalize (s.permitSet c w).forSessions _ = t at walked ⊢
    obtain ⟨tariffs, starts, weekend, permits⟩ := walked.frame .tables (by decide)
    have permit : ∀ d, t.permit d = (s.permitSet c w).permit d := fun d => by
      rw [State.permit, permits]
      rfl
    exact ⟨fun d => (permit d).trans (s.permit_permitSet c d w), starts, weekend, tariffs,
      (BandJudged.of_walked set (h := walked)).refreshAttn,
      ((set.mono (by decide)).step walked.frame).step (attn t)⟩

end Sys2Proof.Machine
end

section
/-!
PROOFS. The record that a close builds (R119, R124, R125, R175), and the second tick (R100, R110).
-/

namespace Sys2Proof.Machine

-- One proof after another: a default `by` argument waits for every earlier proof of the text.
set_option Elab.async false

/-! ## Fields of a packed word (R175) -/

/-- A field below the fields above it adds to their number. -/
theorem toNat_packWord_cons {v p m : Nat} {fields : List (Nat × Nat)} (q : Nat)
    (h : (packWord fields).toNat = m) (fits : v * 2 ^ p < 2 ^ q) (above : 2 ^ q ∣ m)
    (inside : q ≤ 16 := by decide) : (packWord ((v, p) :: fields)).toNat = v * 2 ^ p + m := by
  obtain ⟨k, rfl⟩ := above
  have word : v * 2 ^ p < 2 ^ 16 := lt_of_lt_of_le fits (Nat.pow_le_pow_right (by decide) inside)
  have small : v < 2 ^ 16 := lt_of_le_of_lt (Nat.le_mul_of_pos_right v (Nat.two_pow_pos p)) word
  rw [packWord_cons, BitVec.toNat_or, BitVec.toNat_shiftLeft, BitVec.toNat_ofNat, Nat.mod_eq_of_lt small,
    Nat.shiftLeft_eq, Nat.mod_eq_of_lt word, h, Nat.or_comm, Nat.mul_comm (2 ^ q) k,
    ← Nat.shiftLeft_eq k q, ← Nat.shiftLeft_add_eq_or_of_lt fits, Nat.add_comm]

theorem toNat_packWord_nil : (packWord []).toNat = 0 := rfl

theorem field_eq (w : Word) (lo len : Nat) :
    (w.extractLsb' lo len).toNat = w.toNat / 2 ^ lo % 2 ^ len := by
  rw [BitVec.extractLsb'_toNat, Nat.shiftRight_eq_div_pow]

theorem bit_eq (w : Word) (i : Nat) : w.getLsbD i = decide (w.toNat / 2 ^ i % 2 = 1) := by
  rw [BitVec.getLsbD, Nat.testBit_eq_decide_div_mod_eq]

theorem toNat_recordPlace (i : SlotNo) (n : LineNo) :
    (recordPlace i n).toNat = i.val + 2048 * (n.val % 32) := by
  have low : n.val % 32 < 32 := Nat.mod_lt _ (by decide)
  have slot := i.isLt
  have line := toNat_packWord_cons (v := n.val % 32) (p := 11) 16 toNat_packWord_nil (by omega) (by omega)
  rw [recordPlace, toNat_packWord_cons 11 line (by omega) (by omega)]
  omega

theorem classCode_lt (c : AccountClass) : classCode c < 4 := by cases c <;> decide

theorem CloseReason.code_lt (r : CloseReason) : r.code < 8 := by cases r <;> decide

theorem toNat_recordFlags (v : SpeedNo) (c : AccountClass) (reason : CloseReason) (x : Session)
    (n : LineNo) : (recordFlags v c reason x n).toNat = v.val + 4 * classCode c + 16 * reason.code
      + 128 * x.faults.toNat + 2048 * x.budgetWarned.toNat + 4096 * x.idleWarned.toNat
      + 32768 * (n.val / 32) := by
  have speed := v.isLt
  have cls := classCode_lt c
  have code := reason.code_lt
  have faults := x.faults.isLt
  have budget := x.budgetWarned.toNat_lt
  have idle := x.idleWarned.toNat_lt
  have line := n.isLt
  have upper := toNat_packWord_cons (v := n.val / 32) (p := 15) 16 toNat_packWord_nil (by omega) (by omega)
  have idled := toNat_packWord_cons (v := x.idleWarned.toNat) (p := 12) 15 upper (by omega) (by omega)
  have warned := toNat_packWord_cons (v := x.budgetWarned.toNat) (p := 11) 12 idled (by omega) (by omega)
  have faulty := toNat_packWord_cons (v := x.faults.toNat) (p := 7) 11 warned (by omega) (by omega)
  have reasoned := toNat_packWord_cons (v := reason.code) (p := 4) 7 faulty (by omega) (by omega)
  have classed := toNat_packWord_cons (v := classCode c) (p := 2) 4 reasoned (by omega) (by omega)
  rw [recordFlags, toNat_packWord_cons 2 classed (by omega) (by omega)]
  omega

/-- Settles O13: words 3 and 4 by their fields, the others as they are listed. -/
theorem aRecordCarriesItsSession : Obligations.ARecordCarriesItsSession := by
  intro s n x a reason ha r
  have number : s.numberOf x.slot = a.number := by simp only [State.numberOf, ha]
  have cls : (s.classOf x.slot).getD .student = a.cls := by simp [State.classOf, ha]
  have place : r.words[2] = recordPlace x.slot n := rfl
  have flags : r.words[3] = recordFlags (s.line n).speed a.cls reason x n := by
    rw [← cls]
    rfl
  have slot := x.slot.isLt
  have speed := (s.line n).speed.isLt
  have code := classCode_lt a.cls
  have closed := reason.code_lt
  have faults := x.faults.isLt
  have line := n.isLt
  have budget := x.budgetWarned.toNat_lt
  have idle := x.idleWarned.toNat_lt
  refine ⟨rfl, rfl, number, ?_, ?_, ?_, ?_, ?_, ?_, ?_, ?_, ?_, ?_, rfl, rfl, rfl, rfl, rfl, rfl,
    fun b => ?_, rfl, rfl⟩
  · rw [place, field_eq, toNat_recordPlace]
    omega
  · rw [place, field_eq, toNat_recordPlace]
    omega
  · rw [flags, field_eq, toNat_recordFlags]
    omega
  · rw [flags, field_eq, toNat_recordFlags]
    omega
  · rw [flags, field_eq, toNat_recordFlags]
    omega
  · apply BitVec.eq_of_toNat_eq
    rw [flags, field_eq, toNat_recordFlags]
    omega
  · rw [flags, bit_eq, toNat_recordFlags]
    cases hb : x.budgetWarned <;> simp only [hb] at budget ⊢ <;> simp <;> omega
  · rw [flags, bit_eq, toNat_recordFlags]
    cases hb : x.idleWarned <;> simp <;> omega
  · apply BitVec.eq_of_toNat_eq
    rw [flags, field_eq, toNat_recordFlags]
    simp
    omega
  · rw [flags, bit_eq, toNat_recordFlags]
    rw [decide_eq_decide]
    omega
  · fin_cases b <;> rfl

/-! ## The second tick (R100, R110) -/

/-- The second tick counted, count by count. -/
theorem Meter.countSecondTick_eq (m : Meter) : m.countSecondTick = { m with
    secondsDue := m.secondsDue - 1
    secondTicks := if m.secondTicks + 1 = 60 then 0 else m.secondTicks + 1
    minutesDue := if m.secondTicks + 1 = 60 then m.minutesDue + 1 else m.minutesDue } := by
  simp only [Meter.countSecondTick]
  split <;> rfl

theorem State.secondTicked_due {s : State} (h : 0 < s.meter.secondsDue) : s.secondTicked =
    State.forSessions { s with meter := s.meter.countSecondTick } fun n x t =>
      t.visitSecond (s.gracePresent n) n x := if_pos h

theorem State.secondTicked_not_due {s : State} (h : s.meter.secondsDue = 0) : s.secondTicked = s :=
  if_neg (by omega)

/-- The visits of a second tick change what a charge or a close can change. -/
theorem State.frame_secondVisits (s : State) (running : LineNo → Bool) :
    SameBut closeBlocks s (s.forSessions fun n x t => t.visitSecond (running n) n x) :=
  State.forSessions_induction (P := SameBut closeBlocks s) (SameBut.refl _ s)
    fun n x t ht _ => ht.trans (t.frame_visitSecond _ n x)

/-- Settles O43: a due tick is the walk over the counted part. -/
theorem aSecondTickVisitsEverySession : Obligations.ASecondTickVisitsEverySession := by
  refine fun s running => ⟨fun none_due => ?_, fun due => ?_⟩
  · exact .unchanged (f := State.secondTicked) rfl running (State.secondTicked_not_due none_due)
  · intro counted visited
    have walk : visited = State.forSessions { s with meter := s.meter.countSecondTick } fun n x t =>
        t.visitSecond (s.gracePresent n) n x := by
      rw [Meter.countSecondTick_eq]
      refine congrArg (fun f => List.foldl f counted (List.finRange 64))
        (funext fun t => funext fun n => ?_)
      cases t.session n with
      | none => rfl
      | some x => cases hs : s.session n <;> simp only [State.gracePresent, hs]
    have frame : SameBut closeBlocks counted visited := by
      rw [walk, Meter.countSecondTick_eq]
      exact State.frame_secondVisits counted _
    refine ⟨?_, frame⟩
    rw [walk, ← State.secondTicked_due due]
    exact event_running State.secondTicked running

end Sys2Proof.Machine
end

section
/-!
PROOFS. The minute tick: the clock, the idle checks and the locks (R76, R102, R115, R116).
-/

namespace Sys2Proof.Machine

-- One proof after another: a default `by` argument waits for every earlier proof of the text.
set_option Elab.async false

/-! ## The clock of a minute tick (R102) -/

/-- The clock a minute on, count by count. -/
theorem Meter.advanceClock_eq (m : Meter) : m.advanceClock = { m with
    minute := if m.minute + 1 < 1440 then m.minute + 1 else 0
    weekday := if m.minute + 1 < 1440 then m.weekday
      else if m.weekday + 1 < 7 then m.weekday + 1 else 0
    day := if m.minute + 1 < 1440 then m.day else m.day + 1 } := by
  simp only [Meter.advanceClock]
  split <;> rfl

/-- A part whose clock moved on by the minute tick taken. -/
def State.minuteCounted (s : State) : State :=
  { s with meter := { s.meter.advanceClock with minutesDue := s.meter.minutesDue - 1 } }

theorem State.meter_minuteCounted (s : State) : s.minuteCounted.meter = { s.meter with
    minute := if s.meter.minute + 1 < 1440 then s.meter.minute + 1 else 0
    weekday := if s.meter.minute + 1 < 1440 then s.meter.weekday
      else if s.meter.weekday + 1 < 7 then s.meter.weekday + 1 else 0
    day := if s.meter.minute + 1 < 1440 then s.meter.day else s.meter.day + 1
    minutesDue := s.meter.minutesDue - 1 } := by
  rw [State.minuteCounted, Meter.advanceClock_eq]

theorem State.frame_minuteCounted (s : State) : SameBut [.clock, .timebase] s s.minuteCounted := by
  intro b hb
  cases b <;> first
    | exact absurd (by decide) hb
    | simp [Block.same, State.minuteCounted, Meter.advanceClock_eq]

/-- Every session checked for idleness, in line order (R116). -/
def State.idleChecked (s : State) : State := s.forSessions fun n x t => t.idleCheck n x

theorem State.minuteTicked_due {s : State} (h : 0 < s.meter.minutesDue) :
    s.minuteTicked = s.minuteCounted.reevaluateBand.idleChecked.tickLocks := if_pos h

theorem State.minuteTicked_not_due {s : State} (h : s.meter.minutesDue = 0) : s.minuteTicked = s :=
  if_neg (by omega)

theorem State.frame_idleChecked (s : State) : SameBut closeBlocks s s.idleChecked :=
  State.forSessions_induction (P := SameBut closeBlocks s) (SameBut.refl _ s)
    fun n x t ht _ => ht.trans (t.frame_idleCheck n x)

/-! ## The locks (R76) -/

/-- What a minute tick makes of an account: a TIMED lock counted down, and ended at 0. -/
theorem Account.endLock_tickLock (a : Account) : a.tickLock.endLock = match a.lock with
    | .timed m =>
      if m ≤ 1 then { a with lock := .none, failures := 0 } else { a with lock := .timed (m - 1) }
    | .none => a
    | .held => a := by
  cases hl : a.lock with
  | timed m =>
    simp only [Account.tickLock, hl, Account.endLock, Lock.timed.injEq, Nat.sub_eq_zero_iff_le]
  | none | held => simp [Account.tickLock, hl, Account.endLock]

/-- What R76 counts of an account. -/
def Account.lockState (a : Account) : Lock × Nat := (a.lock, a.failures)

/-- What a minute tick makes of a lock and the failures beside it. -/
def lockAfter (l : Lock × Nat) : Lock × Nat :=
  match l.1 with
  | .timed m => if m ≤ 1 then (.none, 0) else (.timed (m - 1), l.2)
  | .none => (.none, l.2)
  | .held => (.held, l.2)

theorem Account.lockState_tickLock (a : Account) :
    a.tickLock.endLock.lockState = lockAfter a.lockState := by
  rw [Account.endLock_tickLock]
  cases hl : a.lock with
  | timed m => by_cases hm : m ≤ 1 <;> simp [Account.lockState, lockAfter, hl, hm]
  | none | held => simp [Account.lockState, lockAfter, hl]

/-- Every slot has the lock and the failures it had. -/
def LocksStand (s t : State) : Prop :=
  ∀ i, (t.slot i).map Account.lockState = (s.slot i).map Account.lockState

theorem LocksStand.of_frame {bs : List Block} {s t : State} (h : SameBut bs s t)
    (slots : .slots ∉ bs := by decide) : LocksStand s t := fun i => by rw [h.slot slots]

theorem LocksStand.trans {s t u : State} (h : LocksStand s t) (h' : LocksStand t u) : LocksStand s u :=
  fun i => (h' i).trans (h i)

/-- Locks that stand are counted down alike. -/
theorem LocksStand.ticked {s t : State} (h : LocksStand s t) (i : SlotNo) :
    (t.tickLocks.slot i).map Account.lockState = (s.slot i).map fun a => lockAfter a.lockState := by
  have counted := congrArg (Option.map lockAfter) (h i)
  rw [Option.map_map, Option.map_map] at counted
  rw [State.slot_tickLocks, Option.map_map]
  exact (congrArg (Option.map · _) (funext Account.lockState_tickLock)).trans counted

theorem LocksStand.closeSession (s : State) (n : LineNo) (reason : CloseReason) (hang : Option Manner) :
    LocksStand s (s.closeSession n reason hang) := by
  cases hx : s.session n with
  | none => exact (State.closeSession_none hx reason hang).symm ▸ fun _ => rfl
  | some x =>
    obtain ⟨-, -, -, -, own, others, -⟩ := State.sessionClosed hx reason hang
    intro i
    by_cases hi : i = x.slot
    · rw [hi, own, Option.map_map]
      rfl
    · rw [others i hi]

/-! ## One idle check (R116) -/

/-- The idle minutes of line n counted and its latch cleared. -/
def State.idleCounted (s : State) (n : LineNo) : State :=
  s.updLine n fun r => { r with idle := r.idleAfter, activity := false }

/-- WARNING(IDLE) given to line n, and its session marked. -/
def State.idleWarned (s : State) (n : LineNo) : State :=
  (s.give (.warning n .idle)).updSession n fun x => { x with idleWarned := true }

theorem State.frame_idleWarned (s : State) (n : LineNo) :
    SameBut [.sessions, .queues] s (s.idleWarned n) :=
  ((s.frame_give _).mono (by decide)).step (State.frame_updSession _ n _)

section
variable {s : State} {n : LineNo} {x : Session} {a : Account}

theorem State.idleCheck_operator (ha : s.slot x.slot = some a) (operator : a.cls = .operator) :
    s.idleCheck n x = s := by
  simp [State.idleCheck, State.classOf, ha, operator]

theorem State.idleCheck_empty (ha : s.slot x.slot = none) : s.idleCheck n x = s := by
  simp [State.idleCheck, State.classOf, ha]

/-- A metered session's minutes are counted, its line is warned at the warning time, and the limit closes. -/
theorem State.idleCheck_metered (ha : s.slot x.slot = some a) (metered : a.cls ≠ .operator) :
    s.idleCheck n x = State.idleExpired (if (s.line n).idleAfter = s.plan.idleWarn then
      (s.idleCounted n).idleWarned n else s.idleCounted n) n := by
  have cls : s.classOf x.slot = some a.cls := by simp [State.classOf, ha]
  have minutes : ((s.idleCounted n).line n).idle = (s.line n).idleAfter := by
    simp [State.idleCounted]
  rw [← minutes]
  simp only [State.idleCheck, cls]
  rfl

theorem State.idleExpired_due (hx : s.session n = some x) (ha : s.slot x.slot = some a)
    (metered : a.cls ≠ .operator) (due : (s.line n).idle = s.plan.idleLimit) :
    s.idleExpired n = s.closeSession n .idle (some .polite) := by
  have cls : s.classOf x.slot = some a.cls := by simp [State.classOf, ha]
  simp only [State.idleExpired, hx, cls, due, if_true]

theorem State.idleWarned_session (hx : s.session n = some x) : s.idleWarned n =
    (s.give (.warning n .idle)).setSession n (some { x with idleWarned := true }) := by
  have still : (s.give (.warning n .idle)).session n = some x := hx
  rw [State.idleWarned, State.updSession, still]
  rfl

end

theorem LocksStand.idleExpired (s : State) (n : LineNo) : LocksStand s (s.idleExpired n) := by
  simp only [State.idleExpired]
  split
  · exact fun _ => rfl
  · split
    · exact fun _ => rfl
    · exact fun _ => rfl
    · split
      · exact .closeSession s n _ _
      · exact fun _ => rfl

theorem LocksStand.idleCheck (s : State) (n : LineNo) (x : Session) : LocksStand s (s.idleCheck n x) := by
  cases ha : s.slot x.slot with
  | none => exact (State.idleCheck_empty ha).symm ▸ fun _ => rfl
  | some a =>
    by_cases operator : a.cls = .operator
    · exact (State.idleCheck_operator ha operator).symm ▸ fun _ => rfl
    · rw [State.idleCheck_metered ha operator]
      refine LocksStand.trans ?_ (.idleExpired _ n)
      have counted : LocksStand s (s.idleCounted n) := .of_frame (s.frame_updLine n _)
      split
      · exact counted.trans (.of_frame (State.frame_idleWarned _ n))
      · exact counted

theorem LocksStand.idleChecked (s : State) : LocksStand s s.idleChecked :=
  State.forSessions_induction (P := LocksStand s) (fun _ => rfl)
    fun n x t ht _ => ht.trans (.idleCheck t n x)

/-- The walk of the idle checks, as the statement of a minute tick writes it. -/
theorem State.idleChecked_eq_foldl (s : State) : s.idleChecked =
    (List.finRange 64).foldl (fun v n => match v.session n with
      | none => v
      | some x => v.idleCheck n x) s := by
  rw [State.idleChecked, State.forSessions]
  refine List.foldl_ext _ _ _ fun v n _ => ?_
  cases v.session n <;> rfl

/-- A metered session below the limit. -/
theorem State.idleCheck_below {s : State} {n : LineNo} {x : Session} {a : Account}
    (ha : s.slot x.slot = some a) (metered : a.cls ≠ .operator)
    (below : (s.line n).idleAfter ≠ s.plan.idleLimit) : s.idleCheck n x =
      if (s.line n).idleAfter = s.plan.idleWarn then (s.idleCounted n).idleWarned n
      else s.idleCounted n := by
  rw [State.idleCheck_metered ha metered]
  refine State.idleExpired_of_not fun _ _ _ _ => .inr ?_
  split <;> simpa [State.idleWarned, State.idleCounted] using below

/-- A metered session at the limit closes, warned before where the warning time is the limit (R173). -/
theorem State.idleCheck_limit {s : State} {n : LineNo} {x : Session} {a : Account}
    (hx : s.session n = some x) (ha : s.slot x.slot = some a) (metered : a.cls ≠ .operator)
    (limit : (s.line n).idleAfter = s.plan.idleLimit) : s.idleCheck n x = State.closeSession
      (if (s.line n).idleAfter = s.plan.idleWarn then (s.idleCounted n).idleWarned n
      else s.idleCounted n) n .idle (some .polite) := by
  have counted : (s.idleCounted n).session n = some x := hx
  rw [State.idleCheck_metered ha metered]
  split
  · refine State.idleExpired_due (x := { x with idleWarned := true }) ?_ ha metered ?_
    · rw [State.idleWarned_session counted]
      exact State.session_setSession_same _ n _
    · simpa [State.idleWarned, State.idleCounted] using limit
  · exact State.idleExpired_due counted ha metered (by simpa [State.idleCounted] using limit)

/-! ## The minute tick -/

/-- The part after a minute tick that was due, beside the part after its idle checks. -/
theorem State.minuteTicked_spec {s u : State} (hu : u = s.minuteCounted.reevaluateBand) :
    SameBut [.clock, .timebase, .band, .sessions, .queues] s u
      ∧ SameBut [.lines, .slots, .sessions, .posting, .queues] u u.idleChecked.tickLocks
      ∧ BandJudged (fun _ => decide (u.meter.band ≠ s.meter.band)) s u
      ∧ u.meter.band = s.minuteCounted.meter.evaluateBand := by
  subst hu
  have counted := s.frame_minuteCounted
  refine ⟨(counted.mono (by decide)).step (State.frame_reevaluateBand _), ?_,
    State.bandJudged_reevaluateBand counted, State.band_reevaluateBand _⟩
  exact (State.frame_idleChecked _).step (State.frame_tickLocks _)

/-- Settles O45: the tick by its three walks, one idle check by its minutes, and LOCK_END. -/
theorem aMinuteTickAdvancesTheClock : Obligations.AMinuteTickAdvancesTheClock := by
  have attn := State.frame_refreshAttn
  refine ⟨fun s running => ⟨fun none_due => ?_, fun due => ?_⟩, fun n x a s hx ha => ?_,
    fun i s running => ?_⟩
  · exact .unchanged (f := State.minuteTicked) rfl running (State.minuteTicked_not_due none_due)
  · refine .of_event State.minuteTicked rfl running ?_
    rw [State.minuteTicked_due due]
    generalize hu : s.minuteCounted.reevaluateBand = u
    obtain ⟨before, after, judged, band⟩ := State.minuteTicked_spec hu.symm
    have clocked : SameBut [.band, .sessions, .queues] s.minuteCounted u := by
      rw [← hu]
      exact State.frame_reevaluateBand _
    have locks : LocksStand s u.idleChecked := (LocksStand.of_frame before).trans (.idleChecked u)
    have ticked := u.idleChecked.frame_tickLocks
    have slots := fun i => State.slot_tickLocks (s := u.idleChecked) i
    have counted := locks.ticked
    generalize u.idleChecked.tickLocks = t at after ticked slots counted ⊢
    rw [u.idleChecked_eq_foldl] at ticked slots
    have whole : SameBut [.lines, .slots, .sessions, .posting, .queues, .band] s.minuteCounted t :=
      (clocked.mono (by decide)).step after
    obtain ⟨minute, weekday, day⟩ := whole .clock (by decide)
    obtain ⟨divisor, shortTicks, secondTicks, secondsDue, minutesDue⟩ := whole .timebase (by decide)
    rw [s.meter_minuteCounted] at minute weekday day divisor shortTicks secondTicks secondsDue minutesDue
    have kept : t.meter.band = u.meter.band := after .band (by decide)
    refine ⟨minute, weekday, day, minutesDue, divisor, shortTicks, secondTicks, secondsDue,
      kept.trans (band.trans whole.evaluateBand.symm), fun i => ?_,
      ⟨u, judged, before, ticked.step (attn t), fun i => ?_⟩,
      ((before.mono (by decide)).step after).step (attn t)⟩
    · exact counted i
    · exact (slots i).trans (congrArg (Option.map · _) (funext Account.endLock_tickLock))
  · have counted : (s.idleCounted n).session n = some x := hx
    have own : (s.idleCounted n).line n =
        { s.line n with idle := (s.line n).idleAfter, activity := false } := s.line_updLine_same n _
    have others : OtherLines n s (s.idleCounted n) := fun m hm => s.line_updLine_other _ hm
    have frame : SameBut [.lines] s (s.idleCounted n) := s.frame_updLine n _
    refine ⟨State.idleCheck_operator ha,
      fun metered below (quiet : (s.line n).idleAfter ≠ s.plan.idleWarn) => ?_,
      fun metered below (warn : (s.line n).idleAfter = s.plan.idleWarn) => ?_,
      fun metered limit (quiet : (s.line n).idleAfter ≠ s.plan.idleWarn) => ?_,
      fun metered limit (warn : (s.line n).idleAfter = s.plan.idleWarn) => ?_⟩
    · rw [State.idleCheck_below ha metered below, if_neg quiet]
      exact ⟨own, others, frame⟩
    · rw [State.idleCheck_below ha metered below, if_pos warn, State.idleWarned_session counted]
      refine ⟨own, others, State.session_setSession_same _ n _, ?_, ?_, ?_⟩
      · exact fun m hm => State.session_setSession_other _ _ hm
      · exact State.givenOnly_give (s.idleCounted n) (.warning n .idle)
      · exact ((frame.mono (by decide)).step (State.frame_give _ _)).step (State.frame_setSession _ n _)
    · rw [State.idleCheck_limit hx ha metered limit, if_neg quiet]
      exact State.sessionClosed counted _ _
    · rw [State.idleCheck_limit hx ha metered limit, if_pos warn, State.idleWarned_session counted]
      exact State.sessionClosed (State.session_setSession_same _ n _) _ _
  · refine .of_event (fun s => s.updSlot i Account.endLock) rfl running ⟨?_, ?_, ?_⟩
    · exact State.slot_updSlot_same s i _
    · exact fun j hj => State.slot_updSlot_other s _ hj
    · exact (s.frame_updSlot i _).step (attn _)

end Sys2Proof.Machine
end

section
/-!
PROOFS. The visit of a session at a second tick: its seconds, its charge, the judgements of its slot and the
second of its grace (R110 to R112, R114).
-/

namespace Sys2Proof.Machine

-- One proof after another: a default `by` argument waits for every earlier proof of the text.
set_option Elab.async false

/-! ## One session replaced -/

/-- Line n's session is `y`, and nothing else of the part has changed. -/
def AloneAt (n : LineNo) (y : Session) (s t : State) : Prop :=
  t.session n = some y ∧ OtherSessions n s t ∧ SameBut [.sessions] s t ∧ t.pins = s.pins

theorem AloneAt.setSession (s : State) (n : LineNo) (y : Session) :
    AloneAt n y s (s.setSession n (some y)) :=
  ⟨s.session_setSession_same n _, s.otherSessions_setSession n _, s.frame_setSession n _, rfl⟩

section
variable {s : State} {n : LineNo} {x : Session}

theorem State.updSession_some (h : s.session n = some x) (f : Session → Session) :
    s.updSession n f = s.setSession n (some (f x)) := by
  rw [State.updSession, h]
  rfl

theorem AloneAt.updSession (h : s.session n = some x) (f : Session → Session) :
    AloneAt n (f x) s (s.updSession n f) := State.updSession_some h f ▸ .setSession s n (f x)

theorem State.setSession_session (h : s.session n = some x) : s.setSession n (some x) = s := by
  have same : s.meter.sessions.set n (some x) = s.meter.sessions := by
    rw [← h]
    exact Vector.set_getElem_self _
  rw [State.setSession, same]

/-- A close found after the session's own record was changed. -/
theorem SessionClosed.of_setSession {t : State} {y : Session} {o : Option Session} {reason : CloseReason}
    {hang : Option Manner} (h : SessionClosed n y reason hang (s.setSession n o) t) :
    SessionClosed n y reason hang s t := by
  obtain ⟨queue, sequence, own, others, slot, otherSlots, given, ended, sessions, frame⟩ := h
  exact ⟨queue, sequence, own, others, slot, otherSlots, given, ended,
    fun m hm => (sessions m hm).trans (s.session_setSession_other o hm),
    ((s.frame_setSession n o).mono (by decide)).step frame⟩

end

/-! ## The judgements of a slot (R112) -/

/-- A walk that changes no session and gives no warning. -/
theorem Walked.still {after : LineNo → Session → Session} {due : LineNo → Session → List WarningKind}
    (same : ∀ n y, after n y = y) (quiet : ∀ n y, due n y = []) (s : State) :
    Walked after due (List.finRange 64) s s := by
  have none_due : ∀ n, (s.session n).elim [] (due n) = [] := fun n => by
    cases s.session n <;> simp [quiet]
  refine ⟨fun n => ?_, ?_, fun _ _ => rfl, SameBut.refl _ s⟩
  · have same : after n = id := funext (same n)
    simp [same]
  · simp only [none_due, warnLine, List.foldl_nil, List.foldl_fixed]

/-- A session of slot i warned of a budget at the threshold. -/
def Session.lowBudget (y : Session) (i : SlotNo) (reached : Bool) : Session :=
  if y.slot = i then { y with budgetWarned := y.budgetWarned || reached } else y

/-- A session of slot i judged for an exhausted budget. -/
def Session.noBudget (y : Session) (i : SlotNo) (seconds : Nat) (gone : Bool) : Session :=
  if y.slot = i ∧ gone = true then
    { y with grace := graceAfter seconds y.grace .noBudget true }
  else y

/-- The alarm of slot i set where its budget reached the threshold. -/
def State.alarmed (s : State) (i : SlotNo) (reached : Bool) : State :=
  if reached then s.updSlot i fun a => { a with alarm := true } else s

section
variable {s : State} {i : SlotNo} {b : Account}

theorem State.slot_alarmed (h : s.slot i = some b) (reached : Bool) :
    (s.alarmed i reached).slot i = some { b with alarm := b.alarm || reached } := by
  cases reached
  · simpa [State.alarmed] using h
  · rw [State.alarmed, if_pos rfl, State.slot_updSlot_same, h, Bool.or_true]
    rfl

theorem State.otherSlots_alarmed (s : State) (i : SlotNo) (reached : Bool) :
    OtherSlots i s (s.alarmed i reached) := by
  cases reached
  · exact fun _ _ => rfl
  · exact fun j hj => State.slot_updSlot_other s _ hj

theorem State.frame_alarmed (s : State) (i : SlotNo) (reached : Bool) :
    SameBut [.slots] s (s.alarmed i reached) := by
  cases reached
  · exact SameBut.refl _ s
  · exact s.frame_updSlot i _

/-- The visit of a session of the slot at the threshold. -/
theorem State.visited_lowBudget {n : LineNo} {x : Session} (h : s.session n = some x) :
    Visited n (x.lowBudget i true) (if x.slot = i then [.budgetLow] else []) s
      (if x.slot = i then
        (s.give (.warning n .budgetLow)).updSession n fun x => { x with budgetWarned := true }
      else s) := by
  by_cases hi : x.slot = i
  · have given : (s.give (.warning n .budgetLow)).session n = some x := h
    obtain ⟨own, others, -, -⟩ := AloneAt.updSession given fun x => { x with budgetWarned := true }
    obtain ⟨warned, queues⟩ := s.queues_warn n .budgetLow
    simp only [if_pos hi, Session.lowBudget, Bool.or_true]
    exact ⟨own, others, warned, queues,
      ((s.frame_give _).mono (by decide)).step (State.frame_updSession _ n _)⟩
  · simpa only [if_neg hi, Session.lowBudget] using Visited.refl h

/-- R112's threshold judgement is a walk over the sessions of the slot where the threshold is reached. -/
theorem State.walked_judgeThreshold (h : s.slot i = some b) {reached : Bool}
    (hr : reached = (b.budget == s.plan.warnThreshold && !b.alarm)) :
    Walked (fun _ y => y.lowBudget i reached)
      (fun _ y => if y.slot = i ∧ reached = true then [.budgetLow] else []) (List.finRange 64)
      (s.alarmed i reached) (s.judgeThreshold i) := by
  have due : reached = true ↔ b.budget = s.plan.warnThreshold ∧ b.alarm = false := by simp [hr]
  simp only [State.judgeThreshold, h]
  cases hreach : reached
  · rw [if_neg (mt due.mpr (by simp [hreach]))]
    exact .still (by simp [Session.lowBudget]) (by simp) s
  · rw [if_pos (due.mp hreach)]
    simp only [and_true]
    exact State.forSessions_walked fun n x t _ hx => t.visited_lowBudget hx

theorem State.judgeThreshold_not_reached (h : s.slot i = some b)
    (hr : (b.budget == s.plan.warnThreshold && !b.alarm) = false) : s.judgeThreshold i = s := by
  simp only [State.judgeThreshold, h]
  exact if_neg fun due => by simp [due] at hr

/-- The visit of a session of the slot with no budget left. -/
theorem State.visited_noBudget {n : LineNo} {x : Session} (h : s.session n = some x) :
    Visited n (x.noBudget i s.plan.graceSeconds true)
      (if x.slot = i then GraceReason.noBudget.warnings true x.grace else []) s
      (if x.slot = i then s.addReason n .noBudget else s) := by
  have added : s.addReason n .noBudget = s.judgeReason n .noBudget true := rfl
  by_cases hi : x.slot = i
  · simpa only [if_pos hi, added, Session.noBudget, hi, and_self, if_true] using
      State.visited_judgeReason .noBudget true h
  · simpa only [if_neg hi, Session.noBudget, hi, false_and, if_false] using Visited.refl h

/-- R112's exhaustion judgement is a walk over the sessions of the slot where no budget is left. -/
theorem State.walked_judgeExhaustion (h : s.slot i = some b) {gone : Bool}
    (hg : gone = (b.budget == 0)) :
    Walked (fun _ y => y.noBudget i s.plan.graceSeconds gone)
      (fun _ y => if y.slot = i ∧ gone = true then GraceReason.noBudget.warnings true y.grace else [])
      (List.finRange 64) s (s.judgeExhaustion i) := by
  have due : gone = true ↔ b.budget = 0 := by simp [hg]
  simp only [State.judgeExhaustion, h]
  cases hgone : gone
  · rw [if_neg (mt due.mpr (by simp [hgone]))]
    exact .still (by simp [Session.noBudget]) (by simp) s
  · rw [if_pos (due.mp hgone)]
    simp only [and_true]
    refine State.forSessions_walked fun n x t ht hx => ?_
    have plan : t.plan = s.plan := ht .plan (by decide)
    rw [← plan]
    exact t.visited_noBudget hx

theorem State.judgeExhaustion_not_gone (h : s.slot i = some b) (hg : (b.budget == 0) = false) :
    s.judgeExhaustion i = s := by
  simp only [State.judgeExhaustion, h]
  exact if_neg fun due => by simp [due] at hg

end

/-! ## The parts of a visit (R110, R111) -/

/-- A session with its connect seconds counted. -/
def Session.later (x : Session) : Session := { x with seconds := countUp x.seconds Config.maxSeconds }

section
variable {s : State} {n : LineNo} {x : Session} {a : Account}

theorem State.classOf_updSession (ha : s.slot x.slot = some a) (f : Session → Session) :
    (s.updSession n f).classOf x.slot = some a.cls := congrArg (Option.map Account.cls) ha

/-- An OPERATOR session, and one at rate 0, has its seconds counted and nothing else (R110 step 2). -/
theorem State.visitSecond_free (running : Bool) (ha : s.slot x.slot = some a)
    (free : a.cls = .operator ∨ s.rate s.meter.band (s.line n).speed = 0) :
    s.visitSecond running n x = s.updSession n Session.later := by
  cases hc : a.cls
  case operator =>
    simp only [State.visitSecond, State.classOf_updSession ha, hc]
    rfl
  all_goals
    simp only [State.visitSecond, State.classOf_updSession ha, hc]
    exact if_pos (free.resolve_left (by simp [hc]))

/-- Line n's session visited: its seconds and its charge counted (R110 steps 1 to 3). -/
def State.secondCounted (s : State) (n : LineNo) (x : Session) : State :=
  (s.updSession n Session.later).countCharge n x (s.rate s.meter.band (s.line n).speed)

/-- A metered session is charged and, where its grace was running, loses a second of it (R110). -/
theorem State.visitSecond_metered (running : Bool) (ha : s.slot x.slot = some a)
    (metered : a.cls ≠ .operator) (charged : 0 < s.rate s.meter.band (s.line n).speed) :
    s.visitSecond running n x =
      if running then (s.secondCounted n x).runGrace n else s.secondCounted n x := by
  cases hc : a.cls
  case operator => exact absurd hc metered
  all_goals
    simp only [State.visitSecond, State.classOf_updSession ha, hc]
    exact if_neg (Nat.ne_of_gt charged)

/-- Below the rate the charge counter rises. -/
theorem State.secondCounted_below (below : x.charge + 1 < s.rate s.meter.band (s.line n).speed) :
    s.secondCounted n x =
      s.updSession n fun y => { y.later with charge := y.later.charge + 1 } := by
  rw [State.secondCounted, State.countCharge, if_neg (Nat.not_le.mpr below), State.updSession_updSession]

theorem State.chargeUnit_overrun {i : SlotNo} (ha : s.slot i = some a) (gone : a.budget = 0) :
    s.chargeUnit n i = s.updSession n fun y => { y with overrun := countUp y.overrun Config.maxCount } := by
  simp only [State.chargeUnit, ha, gone, Nat.lt_irrefl, if_false]

theorem State.chargeUnit_charged {i : SlotNo} (ha : s.slot i = some a) (left : 0 < a.budget) :
    s.chargeUnit n i = (((s.setSlot i (some a.charged)).updSession n
      fun y => y.countUnit s.meter.band).judgeThreshold i).judgeExhaustion i := by
  simp only [State.chargeUnit, ha, left, if_true]
  rfl

/-- At the rate it starts again, and without budget the unit is counted as overrun (R111). -/
theorem State.secondCounted_overrun (ha : s.slot x.slot = some a) (gone : a.budget = 0)
    (due : s.rate s.meter.band (s.line n).speed ≤ x.charge + 1) : s.secondCounted n x =
      s.updSession n fun y => { y.later with
        charge := 0, overrun := countUp y.later.overrun Config.maxCount } := by
  rw [State.secondCounted, State.countCharge, if_pos due, State.updSession_updSession,
    State.chargeUnit_overrun (s := s.updSession n _) ha gone, State.updSession_updSession]

/-- A session charged a unit of its account's budget in a band. -/
def Session.charging (y : Session) (b : BandNo) : Session :=
  Session.countUnit { y.later with charge := 0 } b

/-- A unit charged, before the judgements of the slot (R111). -/
def State.unitCharged (s : State) (n : LineNo) (i : SlotNo) (a : Account) : State :=
  (s.setSlot i (some a.charged)).updSession n fun y => y.charging s.meter.band

/-- At the rate, with budget, a unit is charged and the slot judged (R111, R112). -/
theorem State.secondCounted_charged (ha : s.slot x.slot = some a) (left : 0 < a.budget)
    (due : s.rate s.meter.band (s.line n).speed ≤ x.charge + 1) : s.secondCounted n x =
      ((s.unitCharged n x.slot a).judgeThreshold x.slot).judgeExhaustion x.slot := by
  have moved : ∀ f : Session → Session, (s.updSession n f).setSlot x.slot (some a.charged) =
      (s.setSlot x.slot (some a.charged)).updSession n f := fun _ => rfl
  rw [State.secondCounted, State.countCharge, if_pos due, State.updSession_updSession,
    State.chargeUnit_charged (s := s.updSession n _) ha left, moved, State.updSession_updSession]
  rfl

/-! ## The charged unit (R111, R112) -/

theorem State.session_unitCharged (s : State) (n : LineNo) (i : SlotNo) (a : Account) (m : LineNo) :
    (s.unitCharged n i a).session m =
      (s.session m).map fun y => if m = n then y.charging s.meter.band else y := by
  by_cases hm : m = n
  · subst hm
    simp only [if_true]
    exact State.session_updSession_same _ m _
  · simp only [if_neg hm, Option.map_id']
    exact State.session_updSession_other _ _ hm

theorem State.frame_unitCharged (s : State) (n : LineNo) (i : SlotNo) (a : Account) :
    SameBut [.slots, .sessions] s (s.unitCharged n i a) :=
  ((s.frame_setSlot i _).mono (by decide)).step (State.frame_updSession _ n _)

/-- The two judgements of a session of a charged slot. -/
def Session.judged (y : Session) (i : SlotNo) (seconds : Nat) (reached gone : Bool) : Session :=
  if y.slot = i then { y with
    budgetWarned := y.budgetWarned || reached
    grace := if gone then graceAfter seconds y.grace .noBudget true else y.grace }
  else y

theorem Session.noBudget_lowBudget (y : Session) (i : SlotNo) (seconds : Nat) (reached gone : Bool) :
    (y.lowBudget i reached).noBudget i seconds gone = y.judged i seconds reached gone := by
  by_cases hi : y.slot = i
  · cases gone <;> simp [Session.lowBudget, Session.noBudget, Session.judged, hi]
  · simp [Session.lowBudget, Session.noBudget, Session.judged, hi]

theorem Session.grace_lowBudget (y : Session) (i : SlotNo) (reached : Bool) :
    (y.lowBudget i reached).slot = y.slot ∧ (y.lowBudget i reached).grace = y.grace := by
  simp only [Session.lowBudget]
  split <;> exact ⟨rfl, rfl⟩

theorem Session.grace_charging (y : Session) (b : BandNo) (c : Prop) [Decidable c] :
    (if c then y.charging b else y).slot = y.slot ∧ (if c then y.charging b else y).grace = y.grace := by
  split <;> exact ⟨rfl, rfl⟩

/-- The part after a unit was charged to slot i for line n's session and the slot was judged: `reached`
the threshold, and no budget left: `gone`. -/
structure UnitJudged (n : LineNo) (i : SlotNo) (a : Account) (reached gone : Bool) (s t : State) :
    Prop where
  own : t.slot i = some { a.charged with alarm := a.alarm || reached }
  others : OtherSlots i s t
  sessions : ∀ m, t.session m = (s.session m).map fun y =>
    (if m = n then y.charging s.meter.band else y).judged i s.plan.graceSeconds reached gone
  warned : t.attention.queue 5 =
    warnLines (fun m => (s.session m).elim [] fun y =>
        if y.slot = i ∧ gone = true then GraceReason.noBudget.warnings true y.grace else [])
      (warnLines (fun m => (s.session m).elim [] fun y =>
        if y.slot = i ∧ reached = true then [.budgetLow] else []) (s.attention.queue 5))
  quiet : reached = false → gone = false → t.attention = s.attention
  queues : OtherQueues 5 s t
  frame : SameBut [.slots, .sessions, .queues] s t

theorem State.unitJudged {i : SlotNo} {reached gone : Bool}
    (hr : reached = (a.budget - 1 == s.plan.warnThreshold && !a.alarm)) (hg : gone = (a.budget - 1 == 0)) :
    UnitJudged n i a reached gone s (((s.unitCharged n i a).judgeThreshold i).judgeExhaustion i) := by
  have charged : (s.unitCharged n i a).slot i = some a.charged := s.slot_setSlot_same i _
  have charged_others : OtherSlots i s (s.unitCharged n i a) := fun j hj => s.slot_setSlot_other _ hj
  have charged_sessions := s.session_unitCharged n i a
  have charged_frame := s.frame_unitCharged n i a
  have attention : (s.unitCharged n i a).attention = s.attention := rfl
  have low := State.walked_judgeThreshold charged hr
  have low_quiet : reached = false → (s.unitCharged n i a).judgeThreshold i = s.unitCharged n i a :=
    fun h => State.judgeThreshold_not_reached charged (hr.symm.trans h)
  generalize s.unitCharged n i a = c at *
  have alarmed := State.slot_alarmed charged reached
  have alarmed_others := c.otherSlots_alarmed i reached
  have alarmed_frame := c.frame_alarmed i reached
  have alarmed_sessions : ∀ m, (c.alarmed i reached).session m =
      (s.session m).map fun y => if m = n then y.charging s.meter.band else y := fun m =>
    (alarmed_frame.session (by decide) m).trans (charged_sessions m)
  generalize c.judgeThreshold i = d at low low_quiet ⊢
  have low_frame : SameBut [.slots, .sessions, .queues] s d :=
    ((charged_frame.mono (by decide)).step alarmed_frame).step low.frame
  have stands : d.slot i = some { a.charged with alarm := a.alarm || reached } :=
    (low.frame.slot (by decide) i).trans alarmed
  have low_sessions : ∀ m, d.session m = (s.session m).map fun y =>
      (if m = n then y.charging s.meter.band else y).lowBudget i reached := fun m => by
    rw [low.sessions, if_pos (List.mem_finRange m), alarmed_sessions, Option.map_map]
    rfl
  have plan : d.plan = s.plan := low_frame .plan (by decide)
  have out := State.walked_judgeExhaustion stands hg
  have out_quiet : gone = false → d.judgeExhaustion i = d := fun h =>
    State.judgeExhaustion_not_gone stands (hg.symm.trans h)
  rw [plan] at out
  generalize d.judgeExhaustion i = t at out out_quiet ⊢
  refine ⟨(out.frame.slot (by decide) i).trans stands, fun j hj => ?_, fun m => ?_, ?_,
    fun above some_left => ?_, fun k hk => ?_, low_frame.step out.frame⟩
  · rw [out.frame.slot (by decide), low.frame.slot (by decide), alarmed_others j hj, charged_others j hj]
  · rw [out.sessions, if_pos (List.mem_finRange m), low_sessions, Option.map_map]
    exact congrArg (Option.map · _) (funext fun y => Session.noBudget_lowBudget _ i _ reached gone)
  · have low_due : ∀ m, ((c.alarmed i reached).session m).elim ([] : List WarningKind) (fun y =>
        if y.slot = i ∧ reached = true then [.budgetLow] else []) = (s.session m).elim [] fun y =>
        if y.slot = i ∧ reached = true then [.budgetLow] else [] := fun m => by
      rw [alarmed_sessions]
      cases s.session m
      · rfl
      · simp only [Option.map_some, Option.elim_some, Session.grace_charging]
    have out_due : ∀ m, (d.session m).elim ([] : List WarningKind) (fun y =>
        if y.slot = i ∧ gone = true then GraceReason.noBudget.warnings true y.grace else []) =
        (s.session m).elim [] fun y =>
        if y.slot = i ∧ gone = true then GraceReason.noBudget.warnings true y.grace else [] := fun m => by
      rw [low_sessions]
      cases s.session m
      · rfl
      · simp only [Option.map_some, Option.elim_some, Session.grace_lowBudget, Session.grace_charging]
    rw [out.warned, low.warned, alarmed_frame.queue (by decide), attention, warnLines_eq_foldl,
      warnLines_eq_foldl]
    simp only [low_due, out_due]
  · rw [out_quiet some_left, low_quiet above, attention]
  · rw [out.queues k hk, low.queues k hk, alarmed_frame.queue (by decide), attention]

/-! ## The second of a grace (R114) -/

/-- A session's grace with a second taken off. -/
def Session.graceRun (y : Session) : Session :=
  { y with grace := y.grace.map fun c => { c with left := c.left - 1 } }

theorem State.runGrace_none {y : Session} (h : s.session n = some y) (hg : y.grace = none) :
    s.runGrace n = s := by
  have same : y.graceRun = y := by
    simp only [Session.graceRun, hg, Option.map_none]
    rw [← hg]
  have run : s.updSession n Session.graceRun = s := by
    rw [State.updSession_some h, same, State.setSession_session h]
  have ended := State.graceExpired_of_running (s := s) (n := n) fun z c hz hc => by
    cases h.symm.trans hz
    cases hg.symm.trans hc
  exact (congrArg (State.graceExpired · n) run).trans ended

theorem State.runGrace_running {y : Session} {c : Grace} (h : s.session n = some y)
    (hg : y.grace = some c) (left : 1 < c.left) :
    s.runGrace n = s.setSession n (some { y with grace := some { c with left := c.left - 1 } }) := by
  have run : s.updSession n Session.graceRun =
      s.setSession n (some { y with grace := some { c with left := c.left - 1 } }) := by
    rw [State.updSession_some h, Session.graceRun, hg]
    rfl
  refine (congrArg (State.graceExpired · n) run).trans (State.graceExpired_of_running fun z d hz hd => ?_)
  rw [State.session_setSession_same] at hz
  cases hz
  cases hd
  exact Nat.sub_pos_of_lt left

theorem State.runGrace_expired {y : Session} {c : Grace} (h : s.session n = some y)
    (hg : y.grace = some c) (left : c.left ≤ 1) :
    SessionClosed n { y with grace := some { c with left := 0 } } c.closeReason (some .polite) s
      (s.runGrace n) := by
  have run : s.updSession n Session.graceRun =
      s.setSession n (some { y with grace := some { c with left := 0 } }) := by
    rw [State.updSession_some h, Session.graceRun, hg, Option.map_some, Nat.sub_eq_zero_of_le left]
  have found := s.session_setSession_same n (some { y with grace := some { c with left := 0 } })
  have closed : s.runGrace n = (s.setSession n (some { y with
      grace := some { c with left := 0 } })).closeSession n c.closeReason (some .polite) := by
    refine (congrArg (State.graceExpired · n) run).trans ?_
    simp only [State.graceExpired, found, if_true]
    rfl
  rw [closed]
  exact (State.sessionClosed found _ _).of_setSession

end

/-! ## The visit -/

/-- NO_BUDGET warns a session of the slot that has not got it. -/
theorem Session.noBudget_warnings (y : Session) (i : SlotNo) (gone : Bool) :
    (if y.slot = i ∧ gone = true then GraceReason.noBudget.warnings true y.grace else []) =
      if y.slot = i ∧ gone = true ∧ y.grace.any (·.noBudget) = false then [.budgetGone] else [] := by
  have known : y.grace.any (·.has .noBudget) = y.grace.any (·.noBudget) := rfl
  simp only [GraceReason.warnings, known, GraceReason.warning, Bool.true_and]
  cases y.grace.any (·.noBudget) <;> simp

section
variable {s : State} {n : LineNo} {x : Session} {a : Account}

/-- A visit leaves line n's session to run its grace. -/
theorem State.session_secondCounted (hx : s.session n = some x) (ha : s.slot x.slot = some a) :
    ∃ y, (s.secondCounted n x).session n = some y := by
  by_cases due : s.rate s.meter.band (s.line n).speed ≤ x.charge + 1
  · by_cases left : 0 < a.budget
    · rw [State.secondCounted_charged ha left due,
        (State.unitJudged (s := s) (n := n) (i := x.slot) (a := a) rfl rfl).sessions, hx]
      exact ⟨_, rfl⟩
    · rw [State.secondCounted_overrun ha (by omega) due, State.updSession_some hx]
      exact ⟨_, s.session_setSession_same n _⟩
  · rw [State.secondCounted_below (by omega), State.updSession_some hx]
    exact ⟨_, s.session_setSession_same n _⟩

end

/-- Settles O44: by rate and budget what is charged, and then by the grace what its second does. -/
theorem aVisitChargesASession : Obligations.AVisitChargesASession := by
  intro n x a s hx ha rate later alone
  refine ⟨fun free running => ?_, fun metered below => ?_, fun metered charged due gone => ?_,
    fun metered charged due left => ?_, fun metered charged => ?_⟩
  · rw [State.visitSecond_free running ha free]
    exact AloneAt.updSession hx _
  · rw [State.visitSecond_metered false ha metered (Nat.zero_lt_of_lt below), if_neg Bool.false_ne_true,
      State.secondCounted_below below]
    exact AloneAt.updSession hx _
  · rw [State.visitSecond_metered false ha metered charged, if_neg Bool.false_ne_true,
      State.secondCounted_overrun ha gone due]
    exact AloneAt.updSession hx _
  · intro t reached gone
    have visited : t = ((s.unitCharged n x.slot a).judgeThreshold x.slot).judgeExhaustion x.slot := by
      rw [← State.secondCounted_charged ha left due]
      exact State.visitSecond_metered false ha metered charged
    rw [visited]
    obtain ⟨own, others, sessions, warned, quiet, queues, frame⟩ :=
      State.unitJudged (s := s) (n := n) (i := x.slot) (a := a) (reached := reached) (gone := gone) rfl rfl
    refine ⟨own, others, fun m => ?_, ?_, quiet, queues, frame⟩
    · rw [sessions m]
      by_cases hm : m = n
      · subst hm
        rw [hx]
        simp only [Option.map_some, if_true]
        rfl
      · simp only [if_neg hm]
        rfl
    · refine warned.trans (congrArg₂ warnLines (funext fun m => ?_)
        (congrArg (warnLines · _) (funext fun m => ?_)))
      · cases s.session m with
        | none => rfl
        | some y => exact y.noBudget_warnings x.slot gone
      · cases s.session m <;> rfl
  · intro u t
    have counted : u = s.secondCounted n x := State.visitSecond_metered false ha metered charged
    have visited : t = u.runGrace n := by
      rw [counted]
      exact State.visitSecond_metered true ha metered charged
    obtain ⟨y, hy⟩ := State.session_secondCounted hx ha
    rw [← counted] at hy
    rw [visited]
    refine ⟨y, hy, State.runGrace_none hy, fun c hc running => ?_, fun c hc ends => ?_⟩
    · rw [State.runGrace_running hy hc running]
      obtain ⟨own, others, frame, -⟩ := AloneAt.setSession u n
        { y with grace := some { c with left := c.left - 1 } }
      exact ⟨own, others, frame⟩
    · exact State.runGrace_expired hy hc ends

end Sys2Proof.Machine
end

section
/-!
SUPPORT. The memory side: what the taking of a cycle leaves, the start test of a posting, and what the
memory side goes on with when it becomes FREE (R132, R157 to R159).
-/

namespace Sys2Proof.Machine

-- One proof after another: a default `by` argument waits for every earlier proof of the text.
set_option Elab.async false

/-! ## What a taking leaves (R157) -/

/-- The blocks the taking of a cycle can change: not the straps, the memory side, the pins, the free value
and the commands waiting. -/
abbrev takenBlocks : List Block :=
  [.lines, .answerQueue, .contexts, .fill, .slots, .requests, .staging, .census, .timebase, .clock,
    .tables, .band, .sessions, .ring, .posting, .window, .queues, .inService, .priority, .latch, .plan,
    .mem]

theorem SameBut.taken {bs : List Block} {s t : State} (h : SameBut bs s t)
    (sub : ∀ b ∈ bs, b ∈ takenBlocks := by decide) : SameBut takenBlocks s t := h.mono sub

theorem State.frame_processorRead (s : State) (o : Offset) :
    SameBut takenBlocks s (s.processorRead o).state := by
  simp only [State.processorRead]
  split
  case h_1 => exact s.frame_readAttention.taken
  case h_7 => exact s.frame_readLatch.taken
  case h_8 => exact s.frame_readCensus.taken
  case h_20 => exact (s.frame_readStatus0 _).taken
  all_goals exact SameBut.refl _ s

theorem State.frame_scannerRead (s : State) (o : Offset) :
    SameBut takenBlocks s (s.scannerRead o).state := by
  simp only [State.scannerRead]
  split
  · split
    · exact SameBut.refl _ s
    · exact (s.frame_readCommand _).taken
  all_goals exact SameBut.refl _ s

theorem State.frame_processorWrite (s : State) (o : Offset) (w : Word) :
    SameBut takenBlocks s (s.processorWrite o w).state := by
  simp only [State.processorWrite]
  split
  · exact (s.frame_processorCommand _ w).taken
  · exact (s.frame_writeAttention w).taken
  · exact (s.frame_setAttention _).taken
  · exact (s.frame_setAttention _).taken
  · exact (s.frame_writePlanStart w).taken
  · exact (s.frame_writePlanWord w).taken
  · exact (s.frame_writeTail w).taken
  · exact (s.frame_startCensus w).taken
  · exact (s.frame_writeCommit w).taken
  · exact (s.frame_writeClockMinute w).taken
  · exact (s.frame_writeClockDay w).taken
  · exact (s.frame_writeTariff _ _ w).taken
  · exact (s.frame_writeBandStart _ w).taken
  · exact (s.frame_writeWeekend w).taken
  · rename_i c _
    simp only [takenWrite, written]
    exact (s.frame_writePermit c w).taken
  · exact (s.frame_writeSetting _ w).taken
  · exact (s.frame_writeStaging _ w).taken
  · exact (s.frame_writePut _ w).taken
  case h_19 | h_20 | h_21 | h_22 | h_23 | h_24 | h_25 => exact (s.frame_writeArea o w).taken
  all_goals exact (s.frame_writeRefused .processor o).taken

theorem State.frame_scannerWrite (s : State) (o : Offset) (w : Word) :
    SameBut takenBlocks s (s.scannerWrite o w).state := by
  simp only [State.scannerWrite]
  split
  · exact (s.frame_acknowledge _ w).taken
  · exact (s.frame_statusWritten _ w).taken
  · exact (s.frame_sweepMarked w).taken
  · exact (s.frame_receive _ _ w).taken
  · exact (s.frame_writeTake _ w).taken
  case h_6 | h_7 | h_8 | h_9 | h_10 => exact (s.frame_writeArea o w).taken
  all_goals exact (s.frame_writeRefused .scanner o).taken

theorem State.frame_classify (s : State) (c : Cycle) :
    SameBut takenBlocks s (s.classify c).state := by
  simp only [State.classify]
  split
  · rename_i o _
    simp only [State.takeInside]
    split
    · exact s.frame_processorRead o
    · exact s.frame_scannerRead o
    · exact s.frame_processorWrite o _
    · exact s.frame_scannerWrite o _
  · simp only [State.takeOutside]
    split
    · exact (s.frame_writeMem _ _).taken
    · exact SameBut.refl _ s

/-! ## A cycle taken (R158, R159) -/

/-- Cycle c, taken against the part as it is in `u`, owns the memory side of `t`, and the cycles that wait
in `u` wait on. -/
def CycleTaken (c : Cycle) (u t : State) : Prop :=
  t.bus.owner = .cycle c (u.classify c).action (u.classify c).data
    ∧ t.bus.restarted = false ∧ t.bus.waiting = u.bus.waiting
    ∧ SameBut [.memorySide] (u.classify c).state t

theorem State.cycleTaken_takeCycle (u : State) (c : Cycle) :
    CycleTaken c u (u.takeCycle c).refreshAttn := by
  have side : Block.memorySide.same u (u.classify c).state := u.frame_classify c _ (by decide)
  obtain ⟨-, -, waiting⟩ := side
  exact ⟨rfl, rfl, waiting, (State.frame_setOwner _ _).step (State.frame_refreshAttn _)⟩

/-! ## The start test (R132) -/

/-- The window's part of the start test: an eligible record and the 6 µs that a posting and its lead
need. -/
def State.windowPosts (s : State) : Prop :=
  ∃ w, s.journal.window = some w ∧ 0 < w.eligible ∧ 6 ≤ w.left

theorem State.not_windowPosts_iff {s : State} :
    ¬ s.windowPosts ↔ ∀ w, s.journal.window = some w → w.eligible = 0 ∨ w.left < 6 := by
  simp only [State.windowPosts, not_exists, not_and, not_le]
  refine forall_congr' fun w => imp_congr_right fun _ => ?_
  omega

theorem State.startTest_iff {s : State} :
    s.startTest = true ↔ s.windowPosts ∧ s.bus.owner = .free ∧ s.bus.waiting = [] := by
  simp only [State.startTest, State.windowPosts]
  cases s.journal.window with
  | none => simp
  | some w =>
    simp only [Bool.and_eq_true, decide_eq_true_eq, beq_iff_eq, List.isEmpty_iff, Option.some.injEq,
      exists_eq_left', and_assoc]
    rfl

theorem State.startPosting_passed {s : State} (posts : s.windowPosts) (free : s.bus.owner = .free)
    (none : s.bus.waiting = []) : s.startPosting = s.setOwner .posting :=
  if_pos (State.startTest_iff.mpr ⟨posts, free, none⟩)

theorem State.startPosting_failed {s : State}
    (h : ¬ s.windowPosts ∨ s.bus.owner ≠ .free ∨ s.bus.waiting ≠ []) : s.startPosting = s := by
  refine if_neg fun passed => ?_
  obtain ⟨posts, free, none⟩ := State.startTest_iff.mp passed
  rcases h with h | h | h
  · exact h posts
  · exact h free
  · exact h none

theorem State.waiting_startPosting (s : State) : s.startPosting.bus.waiting = s.bus.waiting := by
  simp only [State.startPosting]
  split <;> rfl

/-! ## The memory side goes on (R132, R159) -/

/-- With a cycle waiting, the oldest leaves the list and is taken. -/
theorem State.releaseMemorySide_cons {s : State} {c : Cycle} {held : List Cycle}
    (h : s.bus.waiting = c :: held) :
    s.releaseMemorySide = State.takeCycle
      { s with bus := { s.bus with owner := .free, restarted := false, waiting := held } } c := by
  simp only [State.releaseMemorySide, State.bus_setOwner, h]
  rfl

theorem State.cycleTaken_release {s : State} {c : Cycle} {held : List Cycle}
    (h : s.bus.waiting = c :: held) :
    CycleTaken c { s with bus := { s.bus with owner := .free, restarted := false, waiting := held } }
      s.releaseMemorySide.refreshAttn := by
  rw [State.releaseMemorySide_cons h]
  exact State.cycleTaken_takeCycle _ c

/-- With no cycle waiting, the memory side of `t` is FREE or a posting's by the window of `u`. -/
structure SideReleased (u t : State) : Prop where
  waiting : t.bus.waiting = []
  restarted : t.bus.restarted = false
  frame : SameBut [.memorySide] u t
  posting : u.windowPosts → t.bus.owner = .posting
  free : ¬ u.windowPosts → t.bus.owner = .free

theorem State.sideReleased {u : State} (none : u.bus.waiting = []) :
    SideReleased u u.releaseMemorySide.refreshAttn := by
  have released : u.releaseMemorySide = (u.setOwner .free).startPosting := by
    simp only [State.releaseMemorySide, State.bus_setOwner, none]
  have frame : SameBut [.memorySide] u u.releaseMemorySide.refreshAttn := by
    rw [released]
    exact ((u.frame_setOwner .free).step (State.frame_startPosting _)).step (State.frame_refreshAttn _)
  by_cases posts : u.windowPosts
  · have started : u.releaseMemorySide = (u.setOwner .free).setOwner .posting :=
      released.trans (State.startPosting_passed (s := u.setOwner .free) posts rfl none)
    rw [started] at frame ⊢
    exact ⟨none, rfl, frame, fun _ => rfl, fun no => absurd posts no⟩
  · have idle : u.releaseMemorySide = u.setOwner .free :=
      released.trans (State.startPosting_failed (s := u.setOwner .free) (.inl posts))
    rw [idle] at frame ⊢
    exact ⟨none, rfl, frame, fun yes => absurd yes posts, fun _ => rfl⟩

end Sys2Proof.Machine
end

section
/-!
PROOFS. A cycle's arrival and its end (R132, R134, R159, R164, R177).
-/

namespace Sys2Proof.Machine

-- One proof after another: a default `by` argument waits for every earlier proof of the text.
set_option Elab.async false

/-! ## The arrival of a cycle (R134, R159) -/

theorem State.busyWith_iff {s : State} {m : Master} :
    s.busyWith m = true ↔
      (∃ d a v, s.bus.owner = .cycle d a v ∧ d.master = m ∧ s.bus.restarted = false)
        ∨ ∃ d ∈ s.bus.waiting, d.master = m := by
  have own : s.bus.inCycleOf m = true ↔
      ∃ d a v, s.bus.owner = .cycle d a v ∧ d.master = m ∧ s.bus.restarted = false := by
    simp only [BusUnit.inCycleOf]
    cases s.bus.owner <;> simp
  rw [State.busyWith, Bool.or_eq_true, own]
  simp

/-- The cycle as it stands at the arbiter: BRDY low for its master and R134 made on the window. -/
def State.arrivedCycle (s : State) (c : Cycle) : State := (s.setBrdy c.master false).closeWindowAt c

theorem State.arrive_taken {s : State} {c : Cycle} (own : s.busyWith c.master = false)
    (free : s.bus.owner = .free) (none : s.bus.waiting = []) :
    s.arrive c = (s.arrivedCycle c).takeCycle c :=
  (if_neg (Bool.eq_false_iff.mp own)).trans (if_pos ⟨free, none⟩)

theorem State.arrive_waits {s : State} {c : Cycle} (own : s.busyWith c.master = false)
    (busy : s.bus.owner ≠ .free ∨ s.bus.waiting ≠ []) :
    s.arrive c = (s.arrivedCycle c).enqueueCycle c :=
  (if_neg (Bool.eq_false_iff.mp own)).trans
    (if_neg fun idle => busy.elim (· idle.1) (· idle.2))

/-- The arrival at a running part is its event. -/
theorem exec_masterCycleArrival {s : State} (c : Cycle) (h : Running s) :
    exec (.masterCycleArrival c) s = event (fun s => s.arrive c) s := if_pos h

/-- Settles O6: by the master's own cycle and by the memory side, what the arrival does. -/
theorem anArrivingCycleIsTakenOrWaits : Obligations.AnArrivingCycleIsTakenOrWaits := by
  intro c s running
  have arrival := exec_masterCycleArrival c running
  refine ⟨fun own => .of_event _ arrival running ⟨fun free none => ?_, fun busy => ?_⟩,
    fun busy => .unchanged arrival running (if_pos busy), State.busyWith_iff⟩
  · obtain ⟨owner, restarted, waiting, frame⟩ := State.cycleTaken_takeCycle (s.arrivedCycle c) c
    simp only [State.arrive_taken own free none]
    exact ⟨owner, restarted, waiting.trans none, frame⟩
  · simp only [State.arrive_waits own busy]
    exact ⟨rfl, rfl, rfl, (State.frame_enqueueCycle _ c).step (State.frame_refreshAttn _)⟩

/-! ## The end of a cycle (R159, R177) -/

/-- The cycle's master answered, unless a bus reset has restarted it (R177, log 14). -/
def State.cycleAnswered (s : State) (c : Cycle) (d : Word) : State :=
  if s.bus.restarted then s else s.answerCycle c d

theorem State.endCycle_eq {s : State} {c : Cycle} {a : Action} {d : Word}
    (owner : s.bus.owner = .cycle c a d) : s.endCycle = (s.cycleAnswered c d).releaseMemorySide := by
  simp only [State.endCycle, owner]
  rfl

/-- An answer stands on BRDY and BD alone. -/
theorem State.cycleAnswered_elsewhere (s : State) (c : Cycle) (d : Word) :
    (s.cycleAnswered c d).bus = s.bus ∧ (s.cycleAnswered c d).journal = s.journal := by
  simp only [State.cycleAnswered, State.answerCycle]
  split
  · exact ⟨rfl, rfl⟩
  · split <;> exact ⟨rfl, rfl⟩

theorem State.brdy_answerCycle (s : State) (c : Cycle) (d : Word) (m : Master) :
    (s.answerCycle c d).pins.brdy m = if m = c.master then true else s.pins.brdy m := by
  have raised := Pins.brdy_setBrdy s.pins c.master m true
  simp only [State.answerCycle]
  split <;> exact raised

theorem State.brdy_cycleAnswered_same {s : State} (c : Cycle) (d : Word)
    (h : s.bus.restarted = false) : (s.cycleAnswered c d).pins.brdy c.master = true := by
  rw [State.cycleAnswered, if_neg (Bool.eq_false_iff.mp h), State.brdy_answerCycle, if_pos rfl]

theorem State.brdy_cycleAnswered_other (s : State) {c : Cycle} (d : Word) {m : Master}
    (h : m ≠ c.master) : (s.cycleAnswered c d).pins.brdy m = s.pins.brdy m := by
  simp only [State.cycleAnswered]
  split
  · rfl
  · rw [State.brdy_answerCycle, if_neg h]

/-- Settles O7: the answer to the cycle's master, then what the memory side goes on with. -/
theorem aCycleEndHandsTheMemorySideOn : Obligations.ACycleEndHandsTheMemorySideOn := by
  intro c a d s running owner
  obtain ⟨bus, journal⟩ := s.cycleAnswered_elsewhere c d
  refine .of_event State.endCycle rfl running ?_
  rw [State.endCycle_eq owner]
  refine ⟨State.brdy_cycleAnswered_same c d, fun m => s.brdy_cycleAnswered_other d,
    fun w rest waiting => ?_, fun none => ?_⟩
  · have taken := State.cycleTaken_release (s := s.cycleAnswered c d) (bus ▸ waiting)
    rw [bus] at taken
    exact taken
  · obtain ⟨waiting, restarted, frame, posting, free⟩ := State.sideReleased (bus ▸ none)
    rw [State.not_windowPosts_iff, journal] at free
    rw [State.windowPosts, journal] at posting
    exact ⟨waiting, restarted, frame, posting, free⟩

end Sys2Proof.Machine
end

section
/-!
PROOFS. The journal: the windows and the start of postings (R130 to R132, R134), the tail writes (R138)
and the power-on reset, which may cut a posting short (R140, R164).
-/

namespace Sys2Proof.Machine

-- One proof after another: a default `by` argument waits for every earlier proof of the text.
set_option Elab.async false

/-! ## Windows (R130, R131, R134) -/

theorem State.window_sweepMarked (s : State) (w : Word) :
    (s.sweepMarked w).journal.window =
      if s.journal.queue = [] then none
      else some { left := s.plan.windowLength * 10, eligible := s.journal.queue.length,
                  ending := false } := by
  have queue : (s.writeArea sweepOffset w).journal.queue.isEmpty = true ↔ s.journal.queue = [] :=
    List.isEmpty_iff
  simp only [State.sweepMarked, queue]
  split <;> rfl

/-- The marker's word is all that the sweep marker changes of memory. -/
theorem State.mem_sweepMarked (s : State) (w : Word) :
    (s.sweepMarked w).mem = (s.writeArea sweepOffset w).mem := by
  simp only [State.sweepMarked]
  split <;> rfl

theorem State.windowTimedOut_due {s : State} {w : Window} (opened : s.journal.window = some w)
    (expired : w.left = 0) (idle : s.bus.owner ≠ .posting) : s.windowTimedOut = s.setWindow none := by
  simp only [State.windowTimedOut, opened]
  exact if_pos ⟨expired, idle⟩

theorem State.windowTimedOut_early {s : State}
    (h : (∀ w, s.journal.window = some w → 0 < w.left) ∨ s.bus.owner = .posting) :
    s.windowTimedOut = s := by
  simp only [State.windowTimedOut]
  split
  · rename_i w opened
    refine if_neg fun due => ?_
    rcases h with left | posting
    · exact (left w opened).ne' due.1
    · exact due.2 posting
  · rfl

/-- Settles O10: the marker, the time out and the start test, each by its cases. -/
theorem windowsOpenCloseAndStartPostings : Obligations.WindowsOpenCloseAndStartPostings := by
  refine ⟨fun w s running canonical => ?_, fun s running => ?_, fun s running => ?_⟩
  · have window := s.window_sweepMarked w
    have mem := s.mem_sweepMarked w
    refine .of_event (fun s => s.sweepMarked w) rfl running
      ⟨fun none => window.trans (if_pos none), fun queued => window.trans (if_neg queued), ?_,
        fun a ha => ?_, (s.frame_sweepMarked w).step (State.frame_refreshAttn _)⟩
    · exact (congrArg (Memory.read · _) mem).trans (s.readMem_writeArea_same sweepOffset w canonical)
    · exact (congrArg (Memory.read · _) mem).trans (s.otherWords_writeArea sweepOffset w a ha)
  · refine .of_event State.windowTimedOut rfl running ⟨fun w opened expired idle => ?_, fun early => ?_⟩
    · rw [State.windowTimedOut_due opened expired idle]
      exact ⟨rfl, (s.frame_setWindow none).step (State.frame_refreshAttn _)⟩
    · rw [State.windowTimedOut_early early]
      exact s.frame_refreshAttn
  · refine .of_event State.startPosting rfl running
      ⟨s.frame_startPosting.step (State.frame_refreshAttn _), s.waiting_startPosting,
        fun posts free none => ?_, fun held => ?_⟩
    · rw [State.startPosting_passed posts free none]
      rfl
    · rw [← State.not_windowPosts_iff] at held
      rw [State.startPosting_failed held]
      rfl

/-! ## Tail writes (R138) -/

theorem SameBut.journal {bs : List Block} {s t : State} (h : SameBut bs s t)
    (ring : .ring ∉ bs := by decide) (posting : .posting ∉ bs := by decide)
    (window : .window ∉ bs := by decide) : t.journal = s.journal := by
  obtain ⟨capacity, head, tail, visible, lowMark⟩ := h .ring ring
  obtain ⟨queue, sequence⟩ := h .posting posting
  have window : t.journal.window = s.journal.window := h .window window
  cases hs : s.journal
  cases ht : t.journal
  simp_all

/-- The full ring, whose own tail index asks for the whole capacity (R138). -/
theorem Journal.advanceTo_eq (j : Journal) (i : Nat) :
    j.advanceTo i = if i = j.tail ∧ j.visible = j.capacity ∧ 0 < j.capacity then j.capacity
      else (i + j.capacity - j.tail) % j.capacity := by
  simp [Journal.advanceTo, Journal.full]

theorem State.writeTail_accepted {s : State} {w : Word} (index : tailIndex w < s.journal.capacity)
    (within : s.journal.advanceTo (tailIndex w) ≤ s.journal.visible)
    (onward : 0 < s.journal.advanceTo (tailIndex w)) :
    s.writeTail w =
      (s.tailMoved (tailIndex w) (s.journal.advanceTo (tailIndex w))).evaluateGrants :=
  (if_pos ⟨index, within⟩).trans (if_neg onward.ne')

theorem State.writeTail_still {s : State} {w : Word} (index : tailIndex w < s.journal.capacity)
    (still : s.journal.advanceTo (tailIndex w) = 0) : s.writeTail w = s :=
  (if_pos ⟨index, still ▸ Nat.zero_le _⟩).trans (if_pos still)

theorem State.writeTail_refused {s : State} {w : Word}
    (beyond : s.journal.capacity ≤ tailIndex w
      ∨ s.journal.visible < s.journal.advanceTo (tailIndex w)) :
    s.writeTail w = s.refuse .processor tailOffset :=
  if_neg fun accepted => beyond.elim (fun h => absurd accepted.1 (Nat.not_lt.mpr h))
    fun h => absurd accepted.2 (Nat.not_le.mpr h)

/-- Settles O12: by the advance, the records handed back with their grants, nothing, or the refusal. -/
theorem aTailWriteHandsRecordsBack : Obligations.ATailWriteHandsRecordsBack := by
  intro w s running i C adv handed
  have advance : s.journal.advanceTo (tailIndex w) = adv := s.journal.advanceTo_eq _
  refine ⟨fun index within onward => ?_, fun index _ still => ?_, fun beyond => ?_⟩
  · refine .of_event (fun s => s.writeTail w) rfl running ?_
    simp only [State.writeTail_accepted index (advance ▸ within) (advance ▸ onward), advance]
    have moved := s.frame_tailMoved i adv
    have granted := (State.frame_evaluateGrants (s.tailMoved i adv)).step (State.frame_refreshAttn _)
    refine ⟨granted.journal, (moved.mono (by decide)).step granted,
      (GrantSame.refl (s.tailMoved i adv)).grantsMade,
      (State.granted_evaluateGrants (s.tailMoved i adv)).otherNotices, fun none => ?_⟩
    rw [State.evaluateGrants_of_noOneRings (s := s.tailMoved (tailIndex w) adv) none]
    exact moved.step (State.frame_refreshAttn _)
  · exact .unchanged (f := fun s => s.writeTail w) rfl running
      (State.writeTail_still index (advance.trans still))
  · exact .refused (f := fun s => s.writeTail w) rfl running
      (State.writeTail_refused (advance.symm ▸ beyond))

/-! ## Power-on reset (R140, R164) -/

theorem State.tornMemory_whole {s : State} (h : s.bus.owner ≠ .posting ∨ s.journal.queue = []) :
    s.tornMemory = s := by
  simp only [State.tornMemory]
  split
  · rename_i owner queue
    rcases h with h | h
    · exact absurd owner h
    · rw [h] at queue
      cases queue
  · rfl

theorem State.tornMemory_torn {s : State} {r : JournalRecord} {rest : List JournalRecord}
    (owner : s.bus.owner = .posting) (queue : s.journal.queue = r :: rest) :
    s.tornMemory.mem =
      (s.writeRecord s.journal.head r.words.toList (Config.tornWords s.freeUses % 17)).mem := by
  simp only [State.tornMemory, owner, queue]

theorem State.frame_poweredOn (s : State) :
    SameBut [.strap, .porn, .mem, .freeUses, .pending] State.reset s.poweredOn := by
  intro b hb
  cases b <;> first
    | exact absurd (by decide) hb
    | simp [Block.same, State.poweredOn, State.reset, Pins.reset, BusUnit.reset]

/-- Settles O3: the frame from the reset state, and memory by whether a posting is cut short. -/
theorem powerOnResetReturnsEveryBlock : Obligations.PowerOnResetReturnsEveryBlock := by
  intro s
  refine ⟨s.poweredOn, rfl, s.frame_poweredOn, rfl, rfl, rfl, rfl, rfl, fun whole => ?_,
    fun r rest owner queue => ?_⟩
  · have kept := State.tornMemory_whole whole
    exact ⟨(congrArg State.mem kept :), (congrArg State.freeUses kept :)⟩
  · exact ⟨Config.tornWords s.freeUses % 17, by omega, State.tornMemory_torn owner queue⟩

end Sys2Proof.Machine
end

section
/-!
PROOFS. The completion of a posting: the words of the record, what the completion hands over, and the
window and the memory side after it (R124, R133 to R135).
-/

namespace Sys2Proof.Machine

-- One proof after another: a default `by` argument waits for every earlier proof of the text.
set_option Elab.async false

/-! ## Grants seen over a window (R30) -/

theorem SameBut.symm {bs : List Block} {s t : State} (h : SameBut bs s t) : SameBut bs t s := by
  intro b hb
  have same := h b hb
  cases b <;> simp_all [Block.same]

theorem GrantSame.of_window {u v : State} (h : SameBut [.window] u v) : GrantSame u v where
  lines := h .lines (by decide)
  contexts := h .contexts (by decide)
  answerQueue := h .answerQueue (by decide)
  plan := h .plan (by decide)
  ring := h .ring (by decide)
  posting := (h .posting (by decide)).1
  sessions := h .sessions (by decide)
  notices := h.queue (by decide) 6

theorem GrantsMade.of_same {u t v : State} (h : GrantsMade u t) (same : GrantSame t v) :
    GrantsMade u v := by
  obtain ⟨⟨lines, contexts, queue, notices⟩, last, made⟩ := h
  refine ⟨⟨same.lines.trans lines, same.contexts.trans contexts, same.answerQueue.trans queue,
    same.notices.trans notices⟩, same.nextGrant.trans last, ?_⟩
  simpa only [same.answerQueue, same.line, same.ctx, same.notices] using made

/-! ## The words of a record (R124, R133) -/

/-- The words of the record at a position of the ring stand in the upper half of the line area, each at an
offset of its own (R124). -/
theorem toNat_journalOffset {p i : Nat} (hp : p < 1024) (hi : i < 16) :
    (journalOffset p i).toNat = 0x4000 + 16 * p + i := by
  rw [journalOffset, BitVec.toNat_ofNat, Nat.mod_eq_of_lt (by omega)]

theorem State.areaAddr_injective (s : State) {o o' : Offset} (h : s.areaAddr o = s.areaAddr o') :
    o = o' :=
  Option.some.inj (s.areaOffset_areaAddr o ▸ s.areaOffset_areaAddr o' ▸ congrArg s.areaOffset h)

/-- Numbered words written at their places in the record at position p. -/
def State.writePlaced (s : State) (p : Nat) (ws : List (Word × Nat)) : State :=
  ws.foldl (fun s wi => s.writeArea (journalOffset p wi.2) wi.1) s

theorem State.readMem_writePlaced_other {s : State} {p : Nat} {ws : List (Word × Nat)} {a : Addr}
    (h : ∀ x ∈ ws, a ≠ s.areaAddr (journalOffset p x.2)) :
    (s.writePlaced p ws).readMem a = s.readMem a := by
  induction ws generalizing s with
  | nil => rfl
  | cons x ws ih =>
    have rest : ∀ y ∈ ws, a ≠ (s.writeArea (journalOffset p x.2) x.1).areaAddr (journalOffset p y.2) :=
      fun y hy => h y (List.mem_cons_of_mem x hy)
    exact (ih rest).trans (s.readMem_writeArea_other _ x.1 (h x List.mem_cons_self))

/-- Of words with places of their own, each reads back at its place. -/
theorem State.readMem_writePlaced_same {s : State} {p : Nat} {ws : List (Word × Nat)}
    (canonical : MemoryCanonical s) (hp : p < 1024) (inside : ∀ x ∈ ws, x.2 < 16)
    (places : (ws.map Prod.snd).Nodup) {x : Word × Nat} (hx : x ∈ ws) :
    (s.writePlaced p ws).readMem (s.areaAddr (journalOffset p x.2)) = x.1 := by
  induction ws generalizing s with
  | nil => cases hx
  | cons y ws ih =>
    obtain ⟨first, later⟩ := List.nodup_cons.mp places
    rcases List.mem_cons.mp hx with rfl | hx
    · have written := s.readMem_writeArea_same (journalOffset p x.2) x.1 canonical
      refine (State.readMem_writePlaced_other (ws := ws) fun z hz same => first ?_).trans written
      have offsets := congrArg BitVec.toNat (s.areaAddr_injective same)
      rw [toNat_journalOffset hp (inside x hx), toNat_journalOffset hp
        (inside z (List.mem_cons_of_mem x hz))] at offsets
      exact List.mem_map.mpr ⟨z, hz, by omega⟩
    · exact ih (s.wf_writeArea _ y.1 canonical) (fun z hz => inside z (List.mem_cons_of_mem y hz))
        later hx

theorem State.writeRecord_eq (s : State) (p : Nat) (words : Vector Word 16) :
    s.writeRecord p words.toList 16 = s.writePlaced p words.toList.zipIdx := by
  have whole : words.toList.zipIdx.take 16 = words.toList.zipIdx := List.take_of_length_le (by simp)
  rw [State.writeRecord, whole, State.writePlaced]

theorem place_lt_of_mem_zipIdx {words : Vector Word 16} {x : Word × Nat}
    (h : x ∈ words.toList.zipIdx) : x.2 < 16 := by
  simpa using List.snd_lt_of_mem_zipIdx h

theorem State.readMem_writeRecord_same {s : State} {p : Nat} (words : Vector Word 16)
    (canonical : MemoryCanonical s) (hp : p < 1024) (i : Fin 16) :
    (s.writeRecord p words.toList 16).readMem (s.areaAddr (journalOffset p i.val)) = words[i] := by
  have placed : (words[i], i.val) ∈ words.toList.zipIdx := by
    simp [List.mk_mem_zipIdx_iff_getElem?]
  rw [State.writeRecord_eq]
  exact State.readMem_writePlaced_same canonical hp (fun _ => place_lt_of_mem_zipIdx)
    (List.nodup_zipIdx_map_snd _) placed

theorem State.readMem_writeRecord_other {s : State} {p : Nat} (words : Vector Word 16) {a : Addr}
    (h : ∀ i : Fin 16, a ≠ s.areaAddr (journalOffset p i.val)) :
    (s.writeRecord p words.toList 16).readMem a = s.readMem a := by
  rw [State.writeRecord_eq]
  exact State.readMem_writePlaced_other fun x hx => h ⟨x.2, place_lt_of_mem_zipIdx hx⟩

/-! ## The record handed over (R133) -/

/-- A completion up to its grants: the record in memory and visible, and JOURNAL(RECORDS) given. -/
def State.recordGiven (s : State) (r : JournalRecord) (rest : List JournalRecord) : State :=
  (s.recordWritten r rest).give .journalRecords

/-- The record's hand-over in the fields that grants read: no word of memory is among them. -/
def State.recordCounted (s : State) (r : JournalRecord) (rest : List JournalRecord) : State :=
  { s with journal := { s.journal with
      queue := rest
      head := if s.journal.head + 1 < s.journal.capacity then s.journal.head + 1 else 0
      visible := s.journal.visible + 1 } }.setLine r.line { s.line r.line with recordPending := false }

/-- A completion up to the memory side: the record posted and the window after it. -/
def State.postingEnded (s : State) : State := s.recordPosted.windowAfterPosting

theorem State.postingCompleted_eq {s : State} (h : s.bus.owner = .posting) :
    s.postingCompleted = s.postingEnded.releaseMemorySide := if_pos h

theorem State.frame_recordGiven (s : State) (r : JournalRecord) (rest : List JournalRecord) :
    SameBut [.mem, .posting, .lines, .ring, .queues] s (s.recordGiven r rest) :=
  ((s.frame_recordWritten r rest).mono (by decide)).step (State.frame_give _ _)

theorem State.attention_recordWritten (s : State) (r : JournalRecord) (rest : List JournalRecord) :
    (s.recordWritten r rest).attention.queue = s.attention.queue :=
  funext fun k => (s.frame_recordWritten r rest).queue (by decide) k

theorem State.givenOnly_recordGiven (s : State) (r : JournalRecord) (rest : List JournalRecord) :
    GivenOnly .journalRecords s (s.recordGiven r rest) := by
  have given := State.givenOnly_give (s.recordWritten r rest) .journalRecords
  simp only [GivenOnly, OtherQueues, s.attention_recordWritten r rest] at given
  exact given

/-- Grants read the handed-over record alike, in memory or not. -/
theorem State.grantSame_recordGiven (s : State) (r : JournalRecord) (rest : List JournalRecord) :
    GrantSame ((s.recordCounted r rest).give .journalRecords) (s.recordGiven r rest) := by
  have frame := s.frame_recordGiven r rest
  have ring : Block.ring.same s (s.writeRecord s.journal.head r.words.toList 16) :=
    s.frame_writeRecord s.journal.head r.words.toList 16 .ring (by decide)
  obtain ⟨-, -, -, -, lowMark⟩ := ring
  obtain ⟨capacity, head, tail, visible⟩ := s.ring_recordWritten r rest
  have notices : (s.recordGiven r rest).attention.queue 6 =
      queueNotice (s.attention.queue 6) .journalRecords := (s.givenOnly_recordGiven r rest).1
  exact {
    lines := s.lines_recordWritten r rest
    contexts := frame .contexts (by decide)
    answerQueue := frame .answerQueue (by decide)
    plan := frame .plan (by decide)
    ring := ⟨capacity, head, tail, visible, lowMark⟩
    posting := rfl
    sessions := frame .sessions (by decide)
    notices := notices.trans (State.queue_give (s.recordCounted r rest) .journalRecords).symm }

section
variable {s : State} {r : JournalRecord} {rest : List JournalRecord}

/-- After the hand-over come the grants and the window. -/
theorem State.frame_postingEnded_of_given (queued : s.journal.queue = r :: rest) :
    SameBut (.window :: grantBlocks) (s.recordGiven r rest) s.postingEnded := by
  rw [State.postingEnded, State.recordPosted_cons queued]
  exact ((State.frame_evaluateGrants _).mono (by decide)).step (State.frame_windowAfterPosting _)

theorem State.frame_postingEnded (queued : s.journal.queue = r :: rest) :
    SameBut [.mem, .lines, .answerQueue, .contexts, .ring, .posting, .window, .queues] s
      s.postingEnded :=
  ((s.frame_recordGiven r rest).mono (by decide)).step (State.frame_postingEnded_of_given queued)

theorem State.readMem_postingEnded (queued : s.journal.queue = r :: rest) (a : Addr) :
    s.postingEnded.readMem a = (s.writeRecord s.journal.head r.words.toList 16).readMem a :=
  (State.frame_postingEnded_of_given queued).readMem (by decide) a

theorem State.posting_postingEnded (queued : s.journal.queue = r :: rest) :
    s.postingEnded.journal.queue = rest
      ∧ s.postingEnded.journal.sequence = s.journal.sequence := by
  obtain ⟨queue, sequence⟩ := State.frame_postingEnded_of_given queued .posting (by decide)
  have kept : Block.posting.same s (s.writeRecord s.journal.head r.words.toList 16) :=
    s.frame_writeRecord s.journal.head r.words.toList 16 .posting (by decide)
  exact ⟨queue, sequence.trans kept.2⟩

theorem State.ring_postingEnded (queued : s.journal.queue = r :: rest) :
    Block.ring.same (s.recordCounted r rest) s.postingEnded := by
  obtain ⟨capacity, head, tail, visible, lowMark⟩ :=
    State.frame_postingEnded_of_given queued .ring (by decide)
  obtain ⟨capacity', head', tail', visible', lowMark'⟩ := (s.grantSame_recordGiven r rest).ring
  exact ⟨capacity.trans capacity', head.trans head', tail.trans tail', visible.trans visible',
    lowMark.trans lowMark'⟩

theorem State.grantsMade_postingEnded (queued : s.journal.queue = r :: rest) :
    GrantsMade ((s.recordCounted r rest).give .journalRecords) s.postingEnded := by
  rw [State.postingEnded, State.recordPosted_cons queued]
  have settled := (State.frame_refreshAttn (s.recordGiven r rest).evaluateGrants).symm
  exact (s.grantSame_recordGiven r rest).grantsMade.of_same
    (.of_window ((settled.mono (by decide)).trans (State.frame_windowAfterPosting _)))

theorem State.otherQueues_postingEnded (queued : s.journal.queue = r :: rest) :
    OtherQueues 6 s s.postingEnded := by
  intro j hj
  rw [State.postingEnded, State.recordPosted_cons queued,
    (State.frame_windowAfterPosting _).queue (by decide)]
  obtain ⟨-, others⟩ := s.givenOnly_recordGiven r rest
  exact ((State.granted_evaluateGrants _).otherNotices j hj).trans (others j hj)

/-- With no line ringing the window alone follows the hand-over. -/
theorem State.postingEnded_of_noOneRings (queued : s.journal.queue = r :: rest)
    (none : NoOneRings s) : SameBut [.window] (s.recordGiven r rest) s.postingEnded := by
  have queue : (s.recordGiven r rest).answerQueue = s.answerQueue :=
    s.frame_recordGiven r rest .answerQueue (by decide)
  have still : s.recordPosted = s.recordGiven r rest :=
    (State.recordPosted_cons queued).trans (State.evaluateGrants_of_noOneRings (queue.trans none))
  rw [State.postingEnded, still]
  exact State.frame_windowAfterPosting _

theorem State.alone_postingEnded (queued : s.journal.queue = r :: rest) (none : NoOneRings s) :
    s.postingEnded.line r.line = { s.line r.line with recordPending := false }
      ∧ OtherLines r.line s s.postingEnded ∧ GivenOnly .journalRecords s s.postingEnded
      ∧ SameBut [.mem, .lines, .ring, .posting, .window, .queues] s s.postingEnded := by
  have frame := State.postingEnded_of_noOneRings queued none
  have lines : s.postingEnded.lines =
      s.lines.set r.line { s.line r.line with recordPending := false } :=
    (frame .lines (by decide)).trans (s.lines_recordWritten r rest)
  obtain ⟨given, others⟩ := s.givenOnly_recordGiven r rest
  exact ⟨State.line_of_lines lines, State.otherLines_of_lines lines,
    ⟨(frame.queue (by decide) _).trans given,
      fun j hj => (frame.queue (by decide) j).trans (others j hj)⟩,
    ((s.frame_recordGiven r rest).mono (by decide)).step frame⟩

end

/-! ## The window after a posting (R133 steps 3 and 6, R134) -/

/-- The window 4 µs and one record on, or closed with its last record or by a scanner cycle. -/
def Window.afterPosting (w : Window) : Option Window :=
  if w.eligible - 1 = 0 ∨ w.ending then none
  else some { left := w.left - 4, eligible := w.eligible - 1, ending := false }

theorem State.window_windowAfterPosting (s : State) :
    s.windowAfterPosting.journal.window = s.journal.window.bind Window.afterPosting := by
  simp only [State.windowAfterPosting]
  split
  · rename_i closed
    rw [closed]
    rfl
  · rename_i w opened
    rw [opened, Option.bind_some, Window.afterPosting]
    split
    · rfl
    · rename_i goes_on
      have unmarked : w.ending = false := by simpa using (not_or.mp goes_on).2
      simp [Config.postingMicros, unmarked]

theorem State.window_postingEnded (s : State) :
    s.postingEnded.journal.window = s.journal.window.bind Window.afterPosting := by
  have kept : s.recordPosted.journal.window = s.journal.window :=
    s.frame_recordPosted .window (by decide)
  rw [State.postingEnded, State.window_windowAfterPosting, kept]

/-- The next posting starts in a window that goes on with the 6 µs it needs (R132, R133). -/
theorem State.windowPosts_postingEnded {s : State} {w : Window} (opened : s.journal.window = some w) :
    s.postingEnded.windowPosts ↔ ¬ (w.eligible - 1 = 0 ∨ w.ending ∨ w.left - 4 < 6) := by
  rw [State.windowPosts, State.window_postingEnded, opened, Option.bind_some, Window.afterPosting,
    ← or_assoc, not_or]
  split
  · rename_i closes
    simp [closes]
  · rename_i goes_on
    have more : 0 < w.eligible - 1 := Nat.pos_of_ne_zero (not_or.mp goes_on).1
    simp [goes_on, more]

/-! ## The completion -/

/-- Settles O11: the hand-over with its grants and its window, then what the memory side goes on with. -/
theorem aPostingCompletionHandsTheRecordOver : Obligations.APostingCompletionHandsTheRecordOver := by
  intro r rest s running posting queued canonical inside size p u
  have completed := State.postingCompleted_eq posting
  have window : p.journal.window = s.journal.window.bind Window.afterPosting := s.window_postingEnded
  have side : Block.memorySide.same s p := State.frame_postingEnded queued .memorySide (by decide)
  obtain ⟨-, -, waits⟩ := side
  refine ⟨⟨fun i => ?_, fun a ha => ?_, ?_⟩, fun none => ?_, fun c held waiting => ?_⟩
  · exact (State.readMem_postingEnded queued _).trans
      (State.readMem_writeRecord_same r.words canonical (inside.trans_le size) i)
  · exact (State.readMem_postingEnded queued a).trans (State.readMem_writeRecord_other r.words ha)
  · obtain ⟨queue, sequence⟩ := State.posting_postingEnded queued
    obtain ⟨capacity, head, tail, visible, lowMark⟩ := State.ring_postingEnded queued
    refine ⟨queue, sequence, head, visible, capacity, tail, lowMark,
      State.grantsMade_postingEnded queued, State.otherQueues_postingEnded queued,
      State.alone_postingEnded queued, fun w opened => ?_, fun closed => ?_,
      State.frame_postingEnded queued⟩
    · rw [window, opened]
      rfl
    · rw [window, closed]
      rfl
  · refine .of_event State.postingCompleted rfl running ?_
    rw [completed]
    have released := State.sideReleased (waits.trans none)
    refine ⟨released.waiting, released.restarted, fun w opened => ?_, fun closed => ?_,
      released.frame⟩
    · have posts := State.windowPosts_postingEnded opened
      split
      · rename_i ends
        exact released.free fun starts => posts.mp starts ends
      · rename_i goes_on
        exact released.posting (posts.mpr goes_on)
    · refine released.free (State.not_windowPosts_iff.mpr fun w opened => ?_)
      rw [window, closed] at opened
      cases opened
  · refine .of_event State.postingCompleted rfl running ?_
    rw [completed]
    exact State.cycleTaken_release (waits.trans waiting)

end Sys2Proof.Machine
end

section
/-!
SUPPORT. The Attention Controller: the order of the classes, the pollable and the served, and what a poll, a
done and a change of L make of it (R144 to R150).
-/

namespace Sys2Proof.Machine

-- One proof after another: a default `by` argument waits for every earlier proof of the text.
set_option Elab.async false

/-! ## The order of the classes (R144) -/

/-- L+1 is first, and each class after it one place lower. -/
theorem Attention.rank_after_lowest (a : Attention) (i : ClassNo) :
    a.rank (a.lowest + 1 + i) = i.val := by
  simp only [Attention.rank, Fin.val_add, Fin.val_one]
  omega

theorem Attention.mem_order (a : Attention) (k : ClassNo) : k ∈ a.order :=
  List.mem_map.mpr ⟨k - (a.lowest + 1), List.mem_finRange _, by abel⟩

theorem Attention.rank_injective {a : Attention} {j k : ClassNo} (h : a.rank j = a.rank k) : j = k := by
  obtain ⟨i, -, rfl⟩ := List.mem_map.mp (a.mem_order j)
  obtain ⟨m, -, rfl⟩ := List.mem_map.mp (a.mem_order k)
  rw [a.rank_after_lowest, a.rank_after_lowest] at h
  rw [Fin.ext h]

theorem Attention.order_pairwise (a : Attention) :
    a.order.Pairwise fun j k => a.rank j < a.rank k := by
  simp only [Attention.order, List.pairwise_map, Attention.rank_after_lowest]
  exact List.pairwise_lt_finRange 8

theorem Attention.find?_order_eq_none {a : Attention} {p : ClassNo → Bool} :
    a.order.find? p = none ↔ ∀ k, p k = false := by
  simp only [List.find?_eq_none, Bool.not_eq_true, a.mem_order, true_implies]

/-- Of the classes that meet a test, the first in the order outranks every other. -/
theorem Attention.rank_le_of_find?_order {a : Attention} {p : ClassNo → Bool} {k j : ClassNo}
    (found : a.order.find? p = some k) (meets : p j = true) : a.rank k ≤ a.rank j := by
  obtain ⟨-, before, after, split, none_before⟩ := List.find?_eq_some_iff_append.mp found
  have sorted := a.order_pairwise
  have mem := a.mem_order j
  rw [split, List.pairwise_append, List.pairwise_cons] at sorted
  rw [split, List.mem_append, List.mem_cons] at mem
  rcases mem with earlier | rfl | later
  · have fails := none_before j earlier
    simp [meets] at fails
  · exact le_rfl
  · exact (sorted.2.1.1 j later).le

/-- A class that meets a test and outranks every other that does is the one found. -/
theorem Attention.find?_order_eq_some {a : Attention} {p : ClassNo → Bool} {k : ClassNo}
    (meets : p k = true) (highest : ∀ j, p j = true → a.rank k ≤ a.rank j) :
    a.order.find? p = some k := by
  cases found : a.order.find? p with
  | none => simp [Attention.find?_order_eq_none.mp found k] at meets
  | some j =>
    have lower := highest j (List.find?_some found)
    have higher := Attention.rank_le_of_find?_order found meets
    rw [Attention.rank_injective (higher.antisymm lower)]

/-! ## Pollable classes and polls (R145, R147, R150) -/

/-- R145's four conditions. -/
theorem Attention.pollable_iff {a : Attention} {k : ClassNo} :
    a.pollable k = true ↔ a.queue k ≠ [] ∧ a.mask.getLsbD k.val = false ∧ a.served k = none
      ∧ (a.specialMask = true ∨ ∀ j, a.served j ≠ none → a.rank k < a.rank j) := by
  simp only [Attention.pollable, Attention.outranksServed, Bool.and_eq_true, Bool.not_eq_true',
    List.isEmpty_eq_false_iff, Option.isNone_iff_eq_none, Bool.or_eq_true, List.all_eq_true,
    List.mem_finRange, true_implies, decide_eq_true_eq, and_assoc, ne_eq, or_iff_not_imp_left]

theorem Attention.poll_none {a : Attention} (h : ∀ k, a.pollable k = false) : a.poll = (none, a) := by
  have found : a.firstPollable = none := Attention.find?_order_eq_none.mpr h
  simp only [Attention.poll, found]

theorem Attention.poll_some {a : Attention} {k : ClassNo} {e : Notice} {rest : List Notice}
    (pollable : a.pollable k = true) (highest : ∀ j, a.pollable j = true → a.rank k ≤ a.rank j)
    (queue : a.queue k = e :: rest) : a.poll = (some e, a.polled k e rest) := by
  have found : a.firstPollable = some k := Attention.find?_order_eq_some pollable highest
  simp only [Attention.poll, found, queue]

/-- The polled entry goes into service, or in auto-done mode the class is made lowest if auto-rotate is on. -/
theorem Attention.polled_eq (a : Attention) (k : ClassNo) (e : Notice) (rest : List Notice) :
    a.polled k e rest =
      if a.autoDone then
        { a.setQueue k rest with lowest := if a.autoRotate then k else a.lowest }
      else (a.setQueue k rest).setServed k (some e) := by
  simp only [Attention.polled]
  split
  · split <;> rfl
  · rfl

theorem Attention.queue_polled_same (a : Attention) (k : ClassNo) (e : Notice) (rest : List Notice) :
    (a.polled k e rest).queue k = rest := by
  rw [Attention.polled_eq]
  split
  · exact a.queue_setQueue_same k rest
  · exact a.queue_setQueue_same k rest

theorem Attention.queue_polled_other (a : Attention) {k j : ClassNo} (e : Notice) (rest : List Notice)
    (h : j ≠ k) : (a.polled k e rest).queue j = a.queue j := by
  rw [Attention.polled_eq]
  split
  · exact a.queue_setQueue_other rest h
  · exact a.queue_setQueue_other rest h

theorem Attention.served_polled_same (a : Attention) (k : ClassNo) (e : Notice) (rest : List Notice) :
    (a.polled k e rest).served k = if a.autoDone then a.served k else some e := by
  rw [Attention.polled_eq]
  split
  · rfl
  · exact Attention.served_setServed_same _ k _

theorem Attention.served_polled_other (a : Attention) {k j : ClassNo} (e : Notice) (rest : List Notice)
    (h : j ≠ k) : (a.polled k e rest).served j = a.served j := by
  rw [Attention.polled_eq]
  split
  · rfl
  · exact Attention.served_setServed_other _ _ h

theorem Attention.lowest_polled (a : Attention) (k : ClassNo) (e : Notice) (rest : List Notice) :
    (a.polled k e rest).lowest = if a.autoDone = true ∧ a.autoRotate = true then k else a.lowest := by
  rw [Attention.polled_eq, ite_and]
  split
  · rfl
  · rfl

/-- A poll changes neither the mask nor the modes. -/
theorem Attention.settings_polled (a : Attention) (k : ClassNo) (e : Notice) (rest : List Notice) :
    (a.polled k e rest).mask = a.mask ∧ (a.polled k e rest).autoDone = a.autoDone
      ∧ (a.polled k e rest).autoRotate = a.autoRotate
      ∧ (a.polled k e rest).specialMask = a.specialMask := by
  rw [Attention.polled_eq]
  split
  · exact ⟨rfl, rfl, rfl, rfl⟩
  · exact ⟨rfl, rfl, rfl, rfl⟩

/-! ## Dones (R148) -/

theorem Attention.firstServed_none {a : Attention} (h : ∀ j, a.served j = none) :
    a.firstServed = none :=
  Attention.find?_order_eq_none.mpr fun j => by rw [h j]; rfl

theorem Attention.firstServed_some {a : Attention} {k : ClassNo} (served : a.served k ≠ none)
    (highest : ∀ j, a.served j ≠ none → a.rank k ≤ a.rank j) : a.firstServed = some k := by
  simp only [← Option.isSome_iff_ne_none] at served highest
  exact Attention.find?_order_eq_some served highest

/-- Class k's in-service entry has ended and the others, the mask and the modes stand. -/
def Attention.Ended (k : ClassNo) (a b : Attention) : Prop :=
  b.served k = none ∧ (∀ i, i ≠ k → b.served i = a.served i) ∧ b.mask = a.mask
    ∧ b.autoDone = a.autoDone ∧ b.autoRotate = a.autoRotate ∧ b.specialMask = a.specialMask

theorem Attention.ended_doneClass (a : Attention) (k : ClassNo) : Attention.Ended k a (a.doneClass k) :=
  ⟨a.served_setServed_same k none, fun _ hi => a.served_setServed_other none hi, rfl, rfl, rfl, rfl⟩

/-! ## Parts of the controller replaced -/

/-- A change of the controller is one of the parts that the blocks name. -/
theorem State.frame_setAttention_of {bs : List Block} (s : State) (a : Attention)
    (queues : .queues ∉ bs → a.queues = s.attention.queues := by exact fun h => absurd (by decide) h)
    (inService : .inService ∉ bs → a.inService = s.attention.inService := by
      exact fun h => absurd (by decide) h)
    (priority : .priority ∉ bs → a.mask = s.attention.mask ∧ a.lowest = s.attention.lowest
        ∧ a.autoDone = s.attention.autoDone ∧ a.autoRotate = s.attention.autoRotate
        ∧ a.specialMask = s.attention.specialMask := by exact fun h => absurd (by decide) h) :
    SameBut bs s (s.setAttention a) := by
  intro b hb
  cases b with
  | queues => exact queues hb
  | inService => exact inService hb
  | priority => exact priority hb
  | _ => exact s.frame_setAttention a _ (by decide)

end Sys2Proof.Machine
end

section
/-!
PROOFS. The poll, the attention commands and the mask and mode cells (R144 to R152).
-/

namespace Sys2Proof.Machine

-- One proof after another: a default `by` argument waits for every earlier proof of the text.
set_option Elab.async false

/-! ## The poll word (R171) -/

theorem RejectReason.code_lt (r : RejectReason) : r.code < 16 := by cases r <;> decide

theorem WarningKind.code_lt (k : WarningKind) : k.code < 4 := by cases k <;> decide

theorem CommitOutcome.code_lt (o : CommitOutcome) : o.code < 9 := by cases o <;> decide

theorem PlanOutcome.code_lt (o : PlanOutcome) : o.code < 3 := by cases o <;> decide

theorem Notice.detail_lt (e : Notice) : e.detail < 2 ^ 6 := by
  cases e with
  | closed n r => exact r.code_lt.trans (by decide)
  | signed n v => exact v.isLt.trans (by decide)
  | rejected n r => exact r.code_lt.trans (by decide)
  | warning n k => exact k.code_lt.trans (by decide)
  | adminCommit o => exact o.code_lt.trans (by decide)
  | adminPlan o => exact o.code_lt.trans (by decide)
  | promptRestart n => exact Nat.one_lt_two_pow (by decide)
  | promptPassword | promptConnect | journalRecords | journalCreditLow | adminRefused =>
    exact Nat.two_pow_pos 6

/-- The poll word in R171's layout. -/
theorem Notice.word_eq (e : Notice) :
    e.word = 1#1 ++ BitVec.ofNat 3 e.cls.val ++ e.subject ++ BitVec.ofNat 6 e.detail := by
  have class_lt : e.cls.val < 2 ^ 3 := e.cls.isLt
  refine Eq.trans ?_ (setWidth_shift_zero _)
  simp only [Notice.word, packWord_cons, packWord_nil, ofNat_setWidth e.detail_lt,
    ofNat_setWidth class_lt, ofNat_setWidth (v := 1) (k := 1) (by decide), BitVec.ofNat_toNat,
    BitVec.or_zero]
  simp only [setWidth_append_shift]

/-! ## The poll (R147, R150) -/

theorem Completes.poll {s : State} {post : State → Prop} {e : Option Notice} {a : Attention}
    (running : Running s) (polled : s.attention.poll = (e, a))
    (hp : post ((s.setAttention a).setBd (pollWord e)).refreshAttn) : Completes .poll s post := by
  refine .of_readEvent State.readAttention rfl running ?_
  simp only [State.readAttention, polled]
  exact hp

/-- Settles O48: the first pollable class in R144's order is the highest-ranked one. -/
theorem aPollTakesTheHighestClass : Obligations.APollTakesTheHighestClass := by
  intro s running a rank pollable
  refine ⟨fun none_pollable => ?_, fun k e rest pollable_k highest queue => ?_⟩
  · have polled : a.poll = (none, a) := Attention.poll_none fun k =>
      Bool.eq_false_iff.mpr (mt Attention.pollable_iff.mp (none_pollable k))
    exact .poll running polled ⟨rfl, (s.frame_setBd 0#16).step (State.frame_refreshAttn _)⟩
  · have polled : a.poll = (some e, a.polled k e rest) :=
      Attention.poll_some (Attention.pollable_iff.mpr pollable_k)
        (fun j hj => highest j (Attention.pollable_iff.mp hj)) queue
    obtain ⟨-, -, unserved, -⟩ := pollable_k
    have frame : SameBut [.queues, .inService, .priority, .bd] s
        ((s.setAttention (a.polled k e rest)).setBd e.word).refreshAttn :=
      (((s.frame_setAttention _).mono (by decide)).step (State.frame_setBd _ _)).step
        (State.frame_refreshAttn _)
    obtain ⟨mask, autoDone, autoRotate, specialMask⟩ := a.settings_polled k e rest
    exact .poll running polled ⟨e.word_eq, a.queue_polled_same k e rest,
      fun _ => a.queue_polled_other e rest, fun _ => a.served_polled_other e rest,
      unserved ▸ a.served_polled_same k e rest, a.lowest_polled k e rest, mask, autoDone, autoRotate,
      specialMask, frame⟩

/-! ## Commands (R148, R149) -/

theorem Completes.commanded {i : Instr} {s : State} {post : State → Prop} (f : Attention → Attention)
    (hexec : exec i s = event (fun s => s.setAttention (f s.attention)) s) (running : Running s)
    (hp : post (s.setAttention (f s.attention)).refreshAttn) : Completes i s post :=
  .of_event _ hexec running hp

/-- A command that leaves the controller as it is. -/
theorem Completes.uncommanded {i : Instr} {s : State} (f : Attention → Attention)
    (hexec : exec i s = event (fun s => s.setAttention (f s.attention)) s) (running : Running s)
    (same : f s.attention = s.attention) : Completes i s (SameBut [] s) := by
  refine .commanded f hexec running ?_
  rw [same]
  exact s.frame_refreshAttn

theorem State.frame_doneClass (s : State) (k : ClassNo) :
    SameBut [.inService] s (s.setAttention (s.attention.doneClass k)).refreshAttn := by
  refine SameBut.step ?_ (State.frame_refreshAttn _)
  exact s.frame_setAttention_of _ (queues := fun _ => rfl)
    (priority := fun _ => ⟨rfl, rfl, rfl, rfl, rfl⟩)

theorem State.frame_rotatedDone (s : State) (k : ClassNo) : SameBut [.inService, .priority] s
    (s.setAttention ((s.attention.doneClass k).setLowest k)).refreshAttn := by
  refine SameBut.step ?_ (State.frame_refreshAttn _)
  exact s.frame_setAttention_of _ (queues := fun _ => rfl)

/-- The mask, L and the modes set to anything. -/
theorem State.frame_setPriority (s : State) (mask : BitVec 8) (lowest : ClassNo) (d r m : Bool) :
    SameBut [.priority] s (s.setAttention { s.attention with
      mask := mask, lowest := lowest, autoDone := d, autoRotate := r, specialMask := m }).refreshAttn := by
  refine SameBut.step ?_ (State.frame_refreshAttn _)
  exact s.frame_setAttention_of _ (queues := fun _ => rfl) (inService := fun _ => rfl)

/-- Settles O49: the first served class in R144's order is the highest-ranked one, and each command ends its
class's entry or moves L. -/
theorem attentionCommandsActOnTheirClass : Obligations.AttentionCommandsActOnTheirClass := by
  intro k w s running a rank ended
  refine ⟨fun none_served => ?_, fun j served highest => ?_, ?_, fun unserved => ?_, fun served => ?_,
    ?_, ?_, ?_⟩
  · have first := Attention.firstServed_none none_served
    exact ⟨.uncommanded Attention.doneFirst rfl running (by rw [Attention.doneFirst, first]),
      .uncommanded Attention.rotateFirst rfl running (by rw [Attention.rotateFirst, first])⟩
  · have first := Attention.firstServed_some served highest
    refine ⟨.commanded Attention.doneFirst rfl running ?_,
      .commanded Attention.rotateFirst rfl running ?_⟩
    · rw [Attention.doneFirst, first]
      exact ⟨a.ended_doneClass j, s.frame_doneClass j⟩
    · rw [Attention.rotateFirst, first]
      exact ⟨a.ended_doneClass j, rfl, s.frame_rotatedDone j⟩
  · exact .commanded (fun a => a.doneClass k) rfl running ⟨a.ended_doneClass k, s.frame_doneClass k⟩
  · refine .uncommanded (fun a => a.rotateClass k) rfl running ?_
    rw [Attention.rotateClass, unserved]
    rfl
  · refine .commanded (fun a => a.rotateClass k) rfl running ?_
    rw [Attention.rotateClass, if_pos (Option.isSome_iff_ne_none.mpr served)]
    exact ⟨a.ended_doneClass k, rfl, s.frame_rotatedDone k⟩
  · exact .commanded (fun a => a.setLowest k) rfl running ⟨rfl, s.frame_setPriority _ k _ _ _⟩
  · exact .of_event (fun s => s.writeMask w) rfl running ⟨rfl, s.frame_setPriority _ _ _ _ _⟩
  · exact .of_event (fun s => s.writeMode w) rfl running ⟨rfl, s.frame_setPriority _ _ _ _ _⟩

end Sys2Proof.Machine
end

section
/-!
SUPPORT. The subjects of the attention queues: what each change of the controller makes of a queue that holds
every subject at most once, and of entries that stand at their own class (R142, R143).
-/

namespace Sys2Proof.Machine

-- One proof after another: a default `by` argument waits for every earlier proof of the text.
set_option Elab.async false

/-! ## One queue (R142) -/

/-- A queue of class k: every subject at most once, every entry of that class. -/
def QueueSound (k : ClassNo) (q : List Notice) : Prop :=
  (q.map Notice.subject).Nodup ∧ ∀ e ∈ q, e.cls = k

/-- What leaves a queue, from wherever it stands, leaves no subject twice. -/
theorem QueueSound.sublist {k : ClassNo} {q l : List Notice} (h : QueueSound k q) (part : l.Sublist q) :
    QueueSound k l :=
  ⟨h.1.sublist (part.map _), fun e he => h.2 e (part.subset he)⟩

/-- An entry given takes the place of the one with its subject, or joins the tail where there is none. -/
theorem QueueSound.queueNotice {q : List Notice} {e : Notice} (h : QueueSound e.cls q) :
    QueueSound e.cls (queueNotice q e) := by
  obtain ⟨distinct, classes⟩ := h
  by_cases queued : ∃ x ∈ q, x.subject = e.subject
  · have replaced : Machine.queueNotice q e = q.map fun x => if x.subject == e.subject then e else x :=
      if_pos (by simpa using queued)
    have subjects : (q.map fun x => if x.subject == e.subject then e else x).map Notice.subject
        = q.map Notice.subject := by
      rw [List.map_map]
      refine List.map_congr_left fun x _ => ?_
      by_cases hx : x.subject = e.subject
      · simp [hx]
      · simp [hx]
    rw [replaced]
    refine ⟨subjects ▸ distinct, fun y hy => ?_⟩
    obtain ⟨x, hx, rfl⟩ := List.mem_map.mp hy
    split
    · rfl
    · exact classes x hx
  · have joined : Machine.queueNotice q e = q ++ [e] := if_neg (by simpa using queued)
    rw [joined]
    refine ⟨?_, fun x hx => ?_⟩
    · rw [List.map_append]
      refine distinct.append (List.nodup_singleton _) (List.disjoint_singleton.mpr fun mem => queued ?_)
      exact List.mem_map.mp mem
    · rcases List.mem_append.mp hx with earlier | last
      · exact classes x earlier
      · rw [List.mem_singleton.mp last]

/-! ## The controller -/

/-- R142 of the controller alone: its eight queues are sound, and what is in service is at its own class. -/
def Attention.Sound (a : Attention) : Prop :=
  ∀ k, QueueSound k (a.queue k) ∧ ∀ e, a.served k = some e → e.cls = k

theorem subjectsOnce_iff {s : State} : SubjectsOnce s ↔ s.attention.Sound := by
  simp only [SubjectsOnce, Attention.Sound, QueueSound, and_assoc]

theorem Attention.sound_reset : Attention.reset.Sound := subjectsOnce_iff.mp subjectsOnce_reset

theorem Attention.Sound.setQueue {a : Attention} {k : ClassNo} {q : List Notice} (h : a.Sound)
    (hq : QueueSound k q) : (a.setQueue k q).Sound := by
  refine fun j => ⟨?_, (h j).2⟩
  by_cases hj : j = k
  · rw [hj, a.queue_setQueue_same]
    exact hq
  · rw [a.queue_setQueue_other q hj]
    exact (h j).1

theorem Attention.Sound.setServed {a : Attention} {k : ClassNo} {x : Option Notice} (h : a.Sound)
    (hx : ∀ e, x = some e → e.cls = k) : (a.setServed k x).Sound := by
  refine fun j => ⟨(h j).1, ?_⟩
  by_cases hj : j = k
  · rw [hj, a.served_setServed_same]
    exact hx
  · rw [a.served_setServed_other x hj]
    exact (h j).2

/-- A done leaves nothing in service at its class. -/
theorem Attention.Sound.doneClass {a : Attention} (h : a.Sound) (k : ClassNo) : (a.doneClass k).Sound :=
  h.setServed fun e he => by cases he

/-- L plays no part in R142. -/
theorem Attention.Sound.setLowest {a : Attention} (h : a.Sound) (k : ClassNo) : (a.setLowest k).Sound := h

theorem Attention.Sound.doneFirst {a : Attention} (h : a.Sound) : a.doneFirst.Sound := by
  simp only [Attention.doneFirst]
  split
  · exact h.doneClass _
  · exact h

theorem Attention.Sound.rotateFirst {a : Attention} (h : a.Sound) : a.rotateFirst.Sound := by
  simp only [Attention.rotateFirst]
  split
  · exact (h.doneClass _).setLowest _
  · exact h

theorem Attention.Sound.rotateClass {a : Attention} (h : a.Sound) (k : ClassNo) :
    (a.rotateClass k).Sound := by
  simp only [Attention.rotateClass]
  split
  · exact (h.doneClass k).setLowest k
  · exact h

/-- The entry polled leaves the head of its queue, for service at its own class or for nowhere. -/
theorem Attention.Sound.polled {a : Attention} {k : ClassNo} {e : Notice} {rest : List Notice}
    (h : a.Sound) (queue : a.queue k = e :: rest) : (a.polled k e rest).Sound := by
  have own := (h k).1
  rw [queue] at own
  have left : (a.setQueue k rest).Sound := h.setQueue (own.sublist (List.sublist_cons_self e rest))
  rw [Attention.polled_eq]
  split
  · exact left
  · refine left.setServed fun x hx => ?_
    cases hx
    exact own.2 e List.mem_cons_self

theorem Attention.Sound.poll {a : Attention} (h : a.Sound) : a.poll.2.Sound := by
  simp only [Attention.poll]
  split
  · exact h
  · split
    · exact h
    · rename_i queue
      exact h.polled queue

/-! ## What a change of the state makes of R142 -/

/-- R142 goes over from the first state to the second. -/
def SubjectsKept (s t : State) : Prop := s.attention.Sound → t.attention.Sound

theorem SubjectsKept.refl (s : State) : SubjectsKept s s := id

theorem SubjectsKept.trans {s t u : State} (h : SubjectsKept s t) (h' : SubjectsKept t u) :
    SubjectsKept s u := h' ∘ h

theorem SubjectsKept.ite {s t u : State} {c : Prop} [Decidable c] (h : SubjectsKept s t)
    (h' : SubjectsKept s u) : SubjectsKept s (if c then t else u) := by
  split
  · exact h
  · exact h'

/-- A change outside the controller, which its attention field says by itself. -/
theorem SubjectsKept.untouched {s t : State} (same : t.attention = s.attention := by rfl) :
    SubjectsKept s t := fun h => same ▸ h

/-- A change outside the queues and the in-service entries. -/
theorem SubjectsKept.of_frame {bs : List Block} {s t : State} (frame : SameBut bs s t)
    (queues : .queues ∉ bs := by decide) (inService : .inService ∉ bs := by decide) :
    SubjectsKept s t := by
  have same : t.attention.inService = s.attention.inService := frame _ inService
  intro h k
  rw [frame.queue queues, Attention.served, same]
  exact h k

/-- A walk over the sessions keeps what every visit keeps. -/
theorem SubjectsKept.forSessions {s t : State} {f : LineNo → Session → State → State}
    (h : SubjectsKept s t) (visit : ∀ n x u, SubjectsKept u (f n x u)) :
    SubjectsKept s (t.forSessions f) :=
  State.forSessions_induction (P := SubjectsKept s) h fun n x u hu _ => hu.trans (visit n x u)

theorem SubjectsKept.give (s : State) (e : Notice) : SubjectsKept s (s.give e) :=
  fun h => h.setQueue (h e.cls).1.queueNotice

/-- An entry given after a change outside the controller. -/
theorem SubjectsKept.given {s t : State} (e : Notice) (same : t.attention = s.attention := by rfl) :
    SubjectsKept s (t.give e) := (SubjectsKept.untouched same).trans (.give t e)

/-- A withdrawal takes line n's prompts out of the queues of classes 3 and 4 (R143). -/
theorem SubjectsKept.withdrawPrompts (s : State) (n : LineNo) :
    SubjectsKept s (s.withdrawPrompts n) := by
  have left : ∀ {a : Attention} (k : ClassNo), a.Sound →
      (a.setQueue k (withoutLine n (a.queue k))).Sound := fun k h =>
    h.setQueue ((h k).1.sublist List.filter_sublist)
  exact fun h => left 4 (left 3 h)

theorem SubjectsKept.refuse (s : State) (m : Master) (o : Offset) : SubjectsKept s (s.refuse m o) :=
  .ite .untouched (.given .adminRefused)

end Sys2Proof.Machine
end

section
/-!
SUPPORT. What the calls, their grants, their sessions and the ticks make of the subjects of the queues: each
gives or withdraws entries, and changes the controller in no other way (R142, R143).
-/

namespace Sys2Proof.Machine

-- One proof after another: a default `by` argument waits for every earlier proof of the text.
set_option Elab.async false

/-! ## Grants and the dialogue clear (R29 to R31, R36) -/

theorem SubjectsKept.reportCreditFall (s : State) (before : Nat) :
    SubjectsKept s (s.reportCreditFall before) := .ite (.give s _) (.refl s)

theorem SubjectsKept.grant (s : State) (k : CtxNo) (n : LineNo) : SubjectsKept s (s.grant k n) :=
  .trans .untouched (.reportCreditFall _ _)

theorem SubjectsKept.evaluateGrants (s : State) : SubjectsKept s s.evaluateGrants :=
  State.evaluateGrants_induction (P := SubjectsKept s) (.refl s) fun t k n h _ => h.trans (.grant t k n)

theorem SubjectsKept.clearDialogue (s : State) (n : LineNo) (reason : RejectReason)
    (hang : Option Manner) : SubjectsKept s (s.clearDialogue n reason hang) :=
  (((((SubjectsKept.give s _).trans (.withdrawPrompts _ n)).trans
    (.of_frame (State.frame_releaseContext _ n))).trans (.of_frame (State.frame_hangUpFor _ n hang))).trans
    (.of_frame (State.frame_enterClearing _ n))).trans (.evaluateGrants _)

/-! ## Sessions (R109, R113, R114, R116, R118) -/

theorem SubjectsKept.addReason (s : State) (n : LineNo) (g : GraceReason) :
    SubjectsKept s (s.addReason n g) := by
  simp only [State.addReason]
  split
  · exact .refl s
  · split
    · exact .given _
    · exact .ite (.refl s) (.given _)

theorem SubjectsKept.judgeReason (s : State) (n : LineNo) (g : GraceReason) (due : Bool) :
    SubjectsKept s (s.judgeReason n g due) :=
  .ite (.addReason s n g) (.of_frame (s.frame_removeReason n g))

theorem SubjectsKept.judgeBand (s : State) (n : LineNo) (i : SlotNo) :
    SubjectsKept s (s.judgeBand n i) := by
  simp only [State.judgeBand]
  split
  · exact .refl s
  · exact .refl s
  · exact .judgeReason s n _ _

theorem SubjectsKept.judgeLowBudget (s : State) (n : LineNo) (i : SlotNo) :
    SubjectsKept s (s.judgeLowBudget n i) := by
  simp only [State.judgeLowBudget]
  split
  · exact .refl s
  · exact .ite ((SubjectsKept.give s _).trans (.of_frame (State.frame_updSession _ n _))) (.refl s)

theorem SubjectsKept.judgeOpenBand (s : State) (n : LineNo) (i : SlotNo) :
    SubjectsKept s (s.judgeOpenBand n i) := by
  simp only [State.judgeOpenBand]
  split
  · exact .refl s
  · exact .ite (.addReason s n _) (.refl s)

theorem SubjectsKept.openSession (s : State) (n : LineNo) (i : SlotNo) :
    SubjectsKept s (s.openSession n i) :=
  ((SubjectsKept.of_frame (s.frame_setSession n _)).trans (.judgeLowBudget _ n i)).trans
    (.judgeOpenBand _ n i)

theorem SubjectsKept.closeSession (s : State) (n : LineNo) (reason : CloseReason)
    (hang : Option Manner) : SubjectsKept s (s.closeSession n reason hang) := by
  cases hx : s.session n with
  | none =>
    rw [State.closeSession_none hx]
    exact .refl s
  | some x =>
    rw [State.closeSession_some hx]
    have ended : SubjectsKept s (s.sessionEnded n x reason) :=
      (SubjectsKept.given (.closed n reason)).trans (.of_frame (State.frame_setSession _ n none))
    refine (ended.trans ?_).trans (.of_frame (State.frame_enterClearing _ n))
    cases hang with
    | none => exact .refl _
    | some m => exact .of_frame (State.frame_hangUp _ n m)

theorem SubjectsKept.graceExpired (s : State) (n : LineNo) : SubjectsKept s (s.graceExpired n) := by
  simp only [State.graceExpired]
  split
  · exact .refl s
  · split
    · exact .refl s
    · exact .ite (.closeSession s n _ _) (.refl s)

theorem SubjectsKept.idleExpired (s : State) (n : LineNo) : SubjectsKept s (s.idleExpired n) := by
  simp only [State.idleExpired]
  split
  · exact .refl s
  · split
    · exact .refl s
    · exact .refl s
    · exact .ite (.closeSession s n _ _) (.refl s)

/-! ## Status words (R4 to R8, R33) -/

theorem SubjectsKept.answered (s : State) (n : LineNo) : SubjectsKept s (s.answered n) := by
  simp only [State.answered]
  split
  · exact .given (.promptConnect n)
  · exact .given (.promptConnect n)

theorem SubjectsKept.carrierRule (s : State) (n : LineNo) (w : Word) :
    SubjectsKept s (s.carrierRule n w) := by
  have speed := SubjectsKept.of_frame (s.frame_setSpeed n w)
  simp only [State.carrierRule]
  cases (s.line n).state with
  | idle | ringing => exact .ite (speed.trans (.given (.rejected n .unsolicited))) (.refl s)
  | answering => exact .ite (speed.trans (.answered _ n)) (.refl s)
  | name | password | checking | signedOn =>
    dsimp only
    split
    · exact .ite (.of_frame (s.frame_glitch n)) (.refl s)
    · exact .ite .untouched (.ite speed (.refl s))
  | off | passive | clearing => exact .refl s

theorem SubjectsKept.ringRule (s : State) (n : LineNo) (w : Word) :
    SubjectsKept s (s.ringRule n w) := by
  refine .ite ?_ (.refl s)
  cases (s.line n).state with
  | idle =>
    refine .ite ?_ (.refl s)
    rw [State.ringArrival_eq]
    exact (SubjectsKept.of_frame (s.frame_queued n)).trans (.evaluateGrants _)
  | ringing => exact .untouched
  | off | passive | answering | name | password | checking | signedOn | clearing => exact .refl s

theorem SubjectsKept.statusWritten (s : State) (n : LineNo) (w : Word) :
    SubjectsKept s (s.statusWritten n w) := by
  have ruled : ∀ u : State, SubjectsKept u
      ((((u.carrierRule n w).ringRule n w).setLastSeen n w).testClearing n) := fun u =>
    (((SubjectsKept.carrierRule u n w).trans (.ringRule _ n w)).trans
      (.of_frame (State.frame_setLastSeen _ n w))).trans (.of_frame (State.frame_testClearing _ n))
  simp only [State.statusWritten]
  refine (SubjectsKept.of_frame (s.frame_writeArea (statusOffset n) w)).trans ?_
  cases ((s.writeArea (statusOffset n) w).line n).state with
  | passive => exact .refl _
  | off => exact .of_frame (State.frame_setLastSeen _ n w)
  | idle | ringing | answering | name | password | checking | signedOn | clearing => exact ruled _

theorem SubjectsKept.doubtExpired (s : State) (n : LineNo) : SubjectsKept s (s.doubtExpired n) := by
  refine .ite (.trans (t := s.updLine n fun r => { r with doubt := none }) .untouched ?_) (.refl s)
  exact .ite (.clearDialogue _ n _ _) (.ite (.closeSession _ n _ _) (.refl _))

/-! ## The line cells (R13, R18 to R20) -/

theorem SubjectsKept.processorCommand (s : State) (n : LineNo) (w : Word) :
    SubjectsKept s (s.processorCommand n w) := by
  have passed := SubjectsKept.of_frame (s.frame_writeArea (commandOffset n) w)
  exact .ite (passed.trans (.ite (.closeSession _ n _ _) (.ite (.clearDialogue _ n _ _) (.refl _)))) passed

theorem SubjectsKept.modeLoaded (s : State) (n : LineNo) (m : LineMode) :
    SubjectsKept s (s.modeLoaded n m) := by
  have moded := SubjectsKept.of_frame (s.frame_updLine n fun r => { r with mode := m })
  refine .ite (.refl s) ?_
  dsimp only
  cases (s.line n).state with
  | off | passive | idle | ringing | clearing => exact .untouched
  | answering | name | password | checking => exact moded.trans (.clearDialogue _ n _ _)
  | signedOn => exact moded.trans (.closeSession _ n _ _)

theorem SubjectsKept.hangRequested (s : State) (n : LineNo) (m : Manner) :
    SubjectsKept s (s.hangRequested n m) := by
  simp only [State.hangRequested]
  cases (s.line n).state with
  | signedOn => exact .closeSession s n _ _
  | answering | name | password | checking => exact .clearDialogue s n _ _
  | ringing => exact .untouched
  | clearing => exact .ite .untouched (.refl s)
  | idle | off | passive => exact .refl s

theorem SubjectsKept.writeSetting (s : State) (n : LineNo) (w : Word) :
    SubjectsKept s (s.writeSetting n w) := by
  have loaded : SubjectsKept s (s.settingModeLoad n w) := by
    simp only [State.settingModeLoad]
    split
    · exact .modeLoaded s n _
    · exact .refl s
  refine .ite (.refuse s _ _) (loaded.trans ?_)
  simp only [State.settingHangRequest]
  split
  · exact .hangRequested _ n _
  · exact .refl _
  · exact .refl _

theorem SubjectsKept.answerExpired (s : State) (n : LineNo) : SubjectsKept s (s.answerExpired n) :=
  .ite (.clearDialogue s n _ _) (.refl s)

/-! ## The dialogue (R42 to R50) -/

theorem SubjectsKept.rejectAttempt (s : State) (k : CtxNo) (n : LineNo) (reason : RejectReason) :
    SubjectsKept s (s.rejectAttempt k n reason) :=
  .ite (.given (.rejected n reason)) (.clearDialogue s n _ _)

theorem SubjectsKept.endName (s : State) (k : CtxNo) (n : LineNo) : SubjectsKept s (s.endName k n) :=
  .ite (.refl s) (.ite (.rejectAttempt s k n _) (.given (.promptPassword n)))

theorem SubjectsKept.endPassword (s : State) (k : CtxNo) (n : LineNo) :
    SubjectsKept s (s.endPassword k n) :=
  .ite (.refl s) (.trans .untouched (.of_frame (State.frame_submit _ _)))

theorem SubjectsKept.countNoise (s : State) (k : CtxNo) (n : LineNo) :
    SubjectsKept s (s.countNoise k n) := by
  have counted := SubjectsKept.of_frame (s.frame_updCtx k fun c => { c with noise := c.noise + 1 })
  exact .ite (counted.trans (.clearDialogue _ n _ _)) counted

theorem SubjectsKept.restartDialogue (s : State) (k : CtxNo) (n : LineNo) :
    SubjectsKept s (s.restartDialogue k n) := .given (.promptRestart n)

theorem SubjectsKept.dialogueEntry (s : State) (k : CtxNo) (n : LineNo) (w : Word) :
    SubjectsKept s (s.dialogueEntry k n w) := by
  simp only [State.dialogueEntry]
  cases (s.line n).state with
  | name =>
    exact .ite (.restartDialogue s k n) (.ite (.countNoise s k n) (.ite (.endName s k n) .untouched))
  | password =>
    exact .ite (.restartDialogue s k n) (.ite (.countNoise s k n) (.ite (.endPassword s k n) .untouched))
  | answering | checking | off | passive | idle | ringing | signedOn | clearing => exact .refl s

theorem SubjectsKept.receive (s : State) (n : LineNo) (i : Fin 32) (w : Word) :
    SubjectsKept s (s.receive n i w) := by
  have marked : ∀ u : State, SubjectsKept u (u.addMarks n w) := fun u =>
    .of_frame (u.frame_updLine n _)
  simp only [State.receive]
  refine (SubjectsKept.of_frame (s.frame_writeArea (receiveOffset n i) (s.entryInMemory n w))).trans ?_
  cases ((s.writeArea (receiveOffset n i) (s.entryInMemory n w)).line n).state with
  | passive => exact .refl _
  | off | idle | ringing | clearing => exact marked _
  | signedOn => exact (marked _).trans .untouched
  | answering | name | password | checking =>
    dsimp only
    refine (marked _).trans ?_
    split
    · exact .dialogueEntry _ _ n w
    · exact .refl _

theorem SubjectsKept.signOnExpired (s : State) (k : CtxNo) : SubjectsKept s (s.signOnExpired k) := by
  simp only [State.signOnExpired]
  split
  · exact .ite (.clearDialogue s _ _ _) (.refl s)
  · exact .refl s

/-! ## Lookups (R54 to R58, R73) -/

theorem SubjectsKept.acceptCall (s : State) (k : CtxNo) (n : LineNo) (i : SlotNo) :
    SubjectsKept s (s.acceptCall k n i) :=
  (((SubjectsKept.trans .untouched (.openSession _ n i)).trans (.give _ _)).trans
    (.withdrawPrompts _ n)).trans (.evaluateGrants _)

theorem SubjectsKept.applyOutcome (s : State) (k : CtxNo) (n : LineNo) (o : LookupOutcome)
    (oi : Option SlotNo) : SubjectsKept s (s.applyOutcome k n o oi) := by
  refine .ite (.trans (.of_frame (s.frame_endLookup k)) ?_) (.refl s)
  split
  · exact .acceptCall _ k n _
  · exact .refl _
  · exact .rejectAttempt _ k n _

theorem SubjectsKept.lookupCompleted (s : State) : SubjectsKept s s.lookupCompleted := by
  simp only [State.lookupCompleted]
  split
  · exact (((SubjectsKept.of_frame (s.frame_inService none)).trans
      (.of_frame (State.frame_lookupOwnEffect _ _ _))).trans (.applyOutcome _ _ _ _ _)).trans
      (.of_frame (State.frame_startService _))
  · exact .refl s
  · exact .refl s

/-! ## Loading (R86 to R96) -/

theorem SubjectsKept.writeStaging (s : State) (i : Fin 16) (w : Word) :
    SubjectsKept s (s.writeStaging i w) :=
  .ite (.trans (.of_frame (s.frame_writeArea _ w)) (.refuse _ _ _)) .untouched

theorem SubjectsKept.writeCommit (s : State) (w : Word) : SubjectsKept s (s.writeCommit w) :=
  .ite (.refuse s _ _) (.ite (.given (.adminCommit .mismatch)) (.ite (.given (.adminCommit .gaps))
    (.trans (.of_frame (s.frame_setStaging _)) (.of_frame (State.frame_submit _ _)))))

theorem SubjectsKept.putReason (s : State) (n : LineNo) (g : GraceReason) (due : Bool) :
    SubjectsKept s (s.putReason n g due) :=
  .ite (.addReason s n g) (.of_frame (s.frame_dropReason n g))

theorem SubjectsKept.alignGrace (s : State) (n : LineNo) (r : Staged) (a : Account) :
    SubjectsKept s (s.alignGrace n r a) := by
  have judged := SubjectsKept.putReason s n .noBudget a.budgetGone
  exact .trans (.ite (judged.trans (.putReason _ n .bandBarred _)) judged)
    (.of_frame (State.frame_endEmptyGrace _ n))

theorem SubjectsKept.alignGraces (s : State) (r : Staged) (i : SlotNo) :
    SubjectsKept s (s.alignGraces r i) := by
  refine .ite (.forSessions (.refl s) fun n x u => ?_) (.refl s)
  split
  · exact .refl u
  · exact .ite (.alignGrace u n r _) (.refl u)

theorem SubjectsKept.applyCommit (s : State) (r : Staged) : SubjectsKept s (s.applyCommit r) := by
  simp only [State.applyCommit]
  split
  · exact .refl s
  · exact .of_frame (s.frame_setSlot _ _)
  · exact (SubjectsKept.of_frame (s.frame_updSlot _ _)).trans (.alignGraces _ r _)
  · exact .of_frame (s.frame_setSlot _ _)

theorem SubjectsKept.commitCompleted (s : State) : SubjectsKept s s.commitCompleted := by
  simp only [State.commitCompleted]
  split
  · have taken := SubjectsKept.of_frame (s.frame_inService none)
    exact (((SubjectsKept.ite (taken.trans (.applyCommit _ _)) taken).trans
      (.of_frame (State.frame_setStaging _ _))).trans (.give _ _)).trans
      (.of_frame (State.frame_startService _))
  · exact .refl s
  · exact .refl s

/-! ## The ticks (R102, R110 to R116) -/

theorem SubjectsKept.judgeThreshold (s : State) (i : SlotNo) :
    SubjectsKept s (s.judgeThreshold i) := by
  simp only [State.judgeThreshold]
  split
  · exact .refl s
  · refine .ite (.forSessions (.of_frame (s.frame_updSlot i _)) fun n x u => ?_) (.refl s)
    exact .ite ((SubjectsKept.give u _).trans (.of_frame (State.frame_updSession _ n _))) (.refl u)

theorem SubjectsKept.judgeExhaustion (s : State) (i : SlotNo) :
    SubjectsKept s (s.judgeExhaustion i) := by
  simp only [State.judgeExhaustion]
  split
  · exact .refl s
  · exact .ite (.forSessions (.refl s) fun n x u => .ite (.addReason u n _) (.refl u)) (.refl s)

theorem SubjectsKept.chargeUnit (s : State) (n : LineNo) (i : SlotNo) :
    SubjectsKept s (s.chargeUnit n i) := by
  simp only [State.chargeUnit]
  split
  · exact .refl s
  · refine .ite ?_ (.of_frame (s.frame_updSession n _))
    exact (((SubjectsKept.of_frame (s.frame_setSlot i _)).trans
      (.of_frame (State.frame_updSession _ n _))).trans (.judgeThreshold _ i)).trans (.judgeExhaustion _ i)

theorem SubjectsKept.countCharge (s : State) (n : LineNo) (x : Session) (rate : Nat) :
    SubjectsKept s (s.countCharge n x rate) :=
  .ite (.trans (.of_frame (s.frame_updSession n _)) (.chargeUnit _ n _))
    (.of_frame (s.frame_updSession n _))

theorem SubjectsKept.runGrace (s : State) (n : LineNo) : SubjectsKept s (s.runGrace n) :=
  (SubjectsKept.of_frame (s.frame_updSession n _)).trans (.graceExpired _ n)

theorem SubjectsKept.visitSecond (s : State) (running : Bool) (n : LineNo) (x : Session) :
    SubjectsKept s (s.visitSecond running n x) := by
  have counted := SubjectsKept.of_frame
    (s.frame_updSession n fun x => { x with seconds := countUp x.seconds Config.maxSeconds })
  have charged := fun rate => counted.trans (.countCharge _ n x rate)
  simp only [State.visitSecond]
  split
  · exact counted
  · exact counted
  · exact .ite counted (.ite ((charged _).trans (.runGrace _ n)) (charged _))

theorem SubjectsKept.secondTicked (s : State) : SubjectsKept s s.secondTicked :=
  .ite (.forSessions .untouched fun n x u => .visitSecond u _ n x) (.refl s)

theorem SubjectsKept.reevaluateBand (s : State) : SubjectsKept s s.reevaluateBand :=
  .ite (.refl s) (.forSessions .untouched fun n x u => .judgeBand u n x.slot)

theorem SubjectsKept.idleCheck (s : State) (n : LineNo) (x : Session) :
    SubjectsKept s (s.idleCheck n x) := by
  have counted := SubjectsKept.of_frame
    (s.frame_updLine n fun r => { r with idle := r.idleAfter, activity := false })
  simp only [State.idleCheck]
  split
  · exact .refl s
  · exact .refl s
  · have warned := counted.trans (.give _ (.warning n .idle))
    exact .trans (.ite (warned.trans (.of_frame (State.frame_updSession _ n _))) counted)
      (.idleExpired _ n)

theorem SubjectsKept.minuteTicked (s : State) : SubjectsKept s s.minuteTicked := by
  refine .ite (.trans ?_ (.of_frame (State.frame_tickLocks _))) (.refl s)
  exact .forSessions (.trans .untouched (.reevaluateBand _)) fun n x u => .idleCheck u n x

end Sys2Proof.Machine
end

section
/-!
PROOFS. Every step keeps ATTN exact and each attention subject at most once (R142, R146).
-/

namespace Sys2Proof.Machine

-- One proof after another: a default `by` argument waits for every earlier proof of the text.
set_option Elab.async false

/-! ## The cells of the meter, the plan and the journal -/

theorem SubjectsKept.writeClockMinute (s : State) (w : Word) : SubjectsKept s (s.writeClockMinute w) :=
  .ite (.trans .untouched (.reevaluateBand _)) (.refuse s _ _)

theorem SubjectsKept.writeClockDay (s : State) (w : Word) : SubjectsKept s (s.writeClockDay w) :=
  .trans .untouched (.reevaluateBand _)

theorem SubjectsKept.writeBandStart (s : State) (b : BandNo) (w : Word) :
    SubjectsKept s (s.writeBandStart b w) := .ite .untouched (.refuse s _ _)

theorem SubjectsKept.writeTariff (s : State) (b : BandNo) (v : SpeedNo) (w : Word) :
    SubjectsKept s (s.writeTariff b v w) := .ite .untouched (.refuse s _ _)

theorem SubjectsKept.writePermit (s : State) (c : AccountClass) (w : Word) :
    SubjectsKept s (s.writePermit c w) :=
  .forSessions .untouched fun n x u => .ite (.judgeBand u n x.slot) (.refl u)

/-- A plan start returns the controller to its reset values, or gives ADMIN(PLAN, REFUSED). -/
theorem SubjectsKept.writePlanStart (s : State) (w : Word) : SubjectsKept s (s.writePlanStart w) :=
  .ite (fun _ => Attention.sound_reset) (.give s _)

theorem SubjectsKept.applyPlanWord (s : State) (k : Nat) (w : Word) :
    SubjectsKept s (s.applyPlanWord k w) := by
  simp only [State.applyPlanWord]
  split
  · exact .untouched
  · exact .trans .untouched (.evaluateGrants _)
  · exact .untouched

theorem SubjectsKept.writePlanWord (s : State) (w : Word) : SubjectsKept s (s.writePlanWord w) := by
  simp only [State.writePlanWord]
  split
  · rename_i k _
    have applied := SubjectsKept.applyPlanWord s k w
    refine .ite (.ite ?_ (applied.trans (.of_frame (State.frame_setPlan _ _)))) (.given _)
    exact (applied.trans (.given (.adminPlan .done))).trans (.evaluateGrants _)
  · exact .refuse s _ _
  · exact .refuse s _ _

theorem SubjectsKept.writeTail (s : State) (w : Word) : SubjectsKept s (s.writeTail w) :=
  .ite (.ite (.refl s) (.trans .untouched (.evaluateGrants _))) (.refuse s _ _)

theorem SubjectsKept.recordPosted (s : State) : SubjectsKept s s.recordPosted := by
  cases h : s.journal.queue with
  | nil => exact (State.recordPosted_nil h).symm ▸ .refl s
  | cons r rest =>
    rw [State.recordPosted_cons h]
    exact ((SubjectsKept.of_frame (s.frame_recordWritten r rest)).trans (.give _ _)).trans
      (.evaluateGrants _)

/-! ## The attention cells (R147 to R152) -/

theorem SubjectsKept.readAttention (s : State) : SubjectsKept s s.readAttention.2 := Attention.Sound.poll

/-- The mask and the modes play no part in R142. -/
theorem SubjectsKept.writeMask (s : State) (w : Word) : SubjectsKept s (s.writeMask w) := id

theorem SubjectsKept.writeMode (s : State) (w : Word) : SubjectsKept s (s.writeMode w) := id

theorem SubjectsKept.writeAttention (s : State) (w : Word) : SubjectsKept s (s.writeAttention w) := by
  simp only [State.writeAttention]
  split
  · exact Attention.Sound.doneFirst
  · exact fun h => h.doneClass _
  · exact Attention.Sound.rotateFirst
  · exact fun h => h.rotateClass _
  · exact fun h => h.setLowest _
  · exact .refuse s _ _

/-! ## The taking of a cycle and the memory-side arbiter (R157 to R160) -/

theorem SubjectsKept.writeRefused (s : State) (m : Master) (o : Offset) :
    SubjectsKept s (s.writeRefused m o) := .ite (.refuse s m o) (.refl s)

theorem SubjectsKept.processorRead (s : State) (o : Offset) :
    SubjectsKept s (s.processorRead o).state := by
  simp only [State.processorRead]
  split
  case h_1 => exact .readAttention s
  case h_7 => exact .of_frame s.frame_readLatch
  case h_8 => exact .of_frame s.frame_readCensus
  case h_20 => exact .of_frame (s.frame_readStatus0 _)
  all_goals exact .refl s

theorem SubjectsKept.scannerRead (s : State) (o : Offset) :
    SubjectsKept s (s.scannerRead o).state := by
  simp only [State.scannerRead]
  split
  · split
    · exact .refl s
    · exact .of_frame (s.frame_readCommand _)
  all_goals exact .refl s

theorem SubjectsKept.processorWrite (s : State) (o : Offset) (w : Word) :
    SubjectsKept s (s.processorWrite o w).state := by
  simp only [State.processorWrite]
  split
  · exact .processorCommand s _ w
  · exact .writeAttention s w
  · exact .writeMask s w
  · exact .writeMode s w
  · exact .writePlanStart s w
  · exact .writePlanWord s w
  · exact .writeTail s w
  · exact .of_frame (s.frame_startCensus w)
  · exact .writeCommit s w
  · exact .writeClockMinute s w
  · exact .writeClockDay s w
  · exact .writeTariff s _ _ w
  · exact .writeBandStart s _ w
  · exact .of_frame (s.frame_writeWeekend w)
  · rename_i c _
    simp only [takenWrite, written]
    exact .writePermit s c w
  · exact .writeSetting s _ w
  · exact .writeStaging s _ w
  · exact .of_frame (s.frame_writePut _ w)
  case h_19 | h_20 | h_21 | h_22 | h_23 | h_24 | h_25 => exact .of_frame (s.frame_writeArea o w)
  all_goals exact .writeRefused s .processor o

theorem SubjectsKept.scannerWrite (s : State) (o : Offset) (w : Word) :
    SubjectsKept s (s.scannerWrite o w).state := by
  simp only [State.scannerWrite]
  split
  · exact .of_frame (s.frame_acknowledge _ w)
  · exact .statusWritten s _ w
  · exact .of_frame (s.frame_sweepMarked w)
  · exact .receive s _ _ w
  · exact .of_frame (s.frame_writeTake _ w)
  case h_6 | h_7 | h_8 | h_9 | h_10 => exact .of_frame (s.frame_writeArea o w)
  all_goals exact .writeRefused s .scanner o

theorem SubjectsKept.takeCycle (s : State) (c : Cycle) : SubjectsKept s (s.takeCycle c) := by
  refine .trans (t := (s.classify c).state) ?_ (.of_frame (State.frame_setOwner _ _))
  simp only [State.classify]
  split
  · simp only [State.takeInside]
    split
    · exact .processorRead s _
    · exact .scannerRead s _
    · exact .processorWrite s _ _
    · exact .scannerWrite s _ _
  · simp only [State.takeOutside]
    split
    · exact .of_frame (s.frame_writeMem _ _)
    · exact .refl s

theorem SubjectsKept.arrive (s : State) (c : Cycle) : SubjectsKept s (s.arrive c) := by
  refine .ite (.refl s) (.trans (t := (s.setBrdy c.master false).closeWindowAt c) .untouched ?_)
  exact .ite (.takeCycle _ c) (.of_frame (State.frame_enqueueCycle _ c))

theorem SubjectsKept.arrivals (s : State) (cs : List Cycle) :
    SubjectsKept s (cs.foldl State.arrive s) := by
  induction cs generalizing s with
  | nil => exact .refl s
  | cons c cs ih => exact (SubjectsKept.arrive s c).trans (ih _)

theorem SubjectsKept.releaseMemorySide (s : State) : SubjectsKept s s.releaseMemorySide := by
  refine (SubjectsKept.of_frame (s.frame_setOwner .free)).trans ?_
  simp only [State.releaseMemorySide]
  split
  · exact .trans (.of_frame (State.frame_setWaiting _ _)) (.takeCycle _ _)
  · exact .of_frame (State.frame_startPosting _)

theorem SubjectsKept.endCycle (s : State) : SubjectsKept s s.endCycle := by
  simp only [State.endCycle]
  split
  · exact .trans (.ite (.refl s) (.of_frame (s.frame_answerCycle _ _))) (.releaseMemorySide _)
  · exact .refl s
  · exact .refl s

theorem SubjectsKept.postingCompleted (s : State) : SubjectsKept s s.postingCompleted :=
  .ite (((SubjectsKept.recordPosted s).trans (.of_frame (State.frame_windowAfterPosting _))).trans
    (.releaseMemorySide _)) (.refl s)

/-! ## Every step keeps the subjects (R142) -/

theorem SubjectsKept.event {f : State → State} {s t : State} (kept : ∀ u, SubjectsKept u (f u))
    (ht : event f s = .next t) : SubjectsKept s t := by
  cases ht
  exact .ite ((kept s).trans .untouched) (.refl s)

theorem SubjectsKept.readEvent {f : State → Word × State} {s t : State}
    (kept : ∀ u, SubjectsKept u (f u).2) (ht : readEvent f s = .next t) : SubjectsKept s t :=
  .event (fun u => (kept u).trans .untouched) ht

/-- An event that leaves the queues and the in-service entries alone. -/
theorem SubjectsKept.frameEvent {f : State → State} {bs : List Block} {s t : State}
    (frame : ∀ u, SameBut bs u (f u)) (ht : Machine.event f s = .next t)
    (queues : .queues ∉ bs := by decide) (inService : .inService ∉ bs := by decide) :
    SubjectsKept s t := .event (fun u => .of_frame (frame u) queues inService) ht

/-- A command that acts on the controller alone. -/
theorem SubjectsKept.commanded {s t : State} (f : Attention → Attention)
    (kept : ∀ a : Attention, a.Sound → (f a).Sound)
    (ht : Machine.event (fun u => u.setAttention (f u.attention)) s = .next t) : SubjectsKept s t :=
  .event (f := fun u => u.setAttention (f u.attention)) (fun u => kept u.attention) ht

theorem SubjectsKept.exec {i : Instr} {s t : State} (ht : exec i s = .next t) : SubjectsKept s t := by
  cases i with
  | statusWrite n w => exact .event (fun u => .statusWritten u n w) ht
  | receiveEntry n j w => exact .event (fun u => .receive u n j w) ht
  | commandWordRead n => exact .readEvent (fun u => .of_frame (u.frame_readCommand n)) ht
  | acknowledge n w => exact .frameEvent (fun u => u.frame_acknowledge n w) ht
  | processorHangUp n => exact .event (fun u => .processorCommand u n hangUpCode) ht
  | transmitPutWrite n w => exact .frameEvent (fun u => u.frame_writePut n w) ht
  | transmitTakeWrite n w => exact .frameEvent (fun u => u.frame_writeTake n w) ht
  | carrierDoubtExpiry n => exact .event (fun u => .doubtExpired u n) ht
  | politeTimeExpiry n => exact .frameEvent (fun u => u.frame_updLine n _) ht
  | clearingTimeExpiry n => exact .frameEvent (fun u => u.frame_updLine n _) ht
  | modeLoad n w => exact .event (fun u => .writeSetting u n w) ht
  | hangRequest n w => exact .event (fun u => .writeSetting u n w) ht
  | sessionStatusRead n => exact .readEvent (fun u => .of_frame (u.frame_readStatus0 n)) ht
  | ringGoneExpiry n => exact .frameEvent (fun u => u.frame_ringGoneExpired n) ht
  | answerTimerExpiry n => exact .event (fun u => .answerExpired u n) ht
  | signOnTimeExpiry k => exact .event (fun u => .signOnExpired u k) ht
  | requestServiceStart => exact .frameEvent (fun u => u.frame_startService) ht
  | lookupCompletion => exact .event (fun u => .lookupCompleted u) ht
  | lockEnd j => exact .frameEvent (fun u => u.frame_updSlot j _) ht
  | censusStart w => exact .frameEvent (fun u => u.frame_startCensus w) ht
  | censusRead => exact .readEvent (fun u => .of_frame u.frame_readCensus) ht
  | stagingWrite j w => exact .event (fun u => .writeStaging u j w) ht
  | commitWrite w => exact .event (fun u => .writeCommit u w) ht
  | commitCompletion => exact .event (fun u => .commitCompleted u) ht
  | shortTick => exact .frameEvent (fun u => u.frame_shortTicked) ht
  | secondTick => exact .event (fun u => .secondTicked u) ht
  | graceExpiry n => exact .event (fun u => .graceExpired u n) ht
  | minuteTick => exact .event (fun u => .minuteTicked u) ht
  | idleLimit n => exact .event (fun u => .idleExpired u n) ht
  | clockMinuteWrite w => exact .event (fun u => .writeClockMinute u w) ht
  | clockDayWrite w => exact .event (fun u => .writeClockDay u w) ht
  | bandStartWrite b w => exact .event (fun u => .writeBandStart u b w) ht
  | weekendWrite w => exact .frameEvent (fun u => u.frame_writeWeekend w) ht
  | tariffWrite b v w => exact .event (fun u => .writeTariff u b v w) ht
  | permitWrite c w => exact .event (fun u => .writePermit u c w) ht
  | sweepMarker w => exact .frameEvent (fun u => u.frame_sweepMarked w) ht
  | postingStart => exact .frameEvent (fun u => u.frame_startPosting) ht
  | postingCompletion => exact .event (fun u => .postingCompleted u) ht
  | windowTimeOut => exact .frameEvent (fun u => u.frame_windowTimedOut) ht
  | tailWrite w => exact .event (fun u => .writeTail u w) ht
  | poll => exact .readEvent (fun u => .readAttention u) ht
  | nonSpecificDone => exact .commanded Attention.doneFirst (fun _ h => h.doneFirst) ht
  | specificDone k => exact .commanded (fun a => a.doneClass k) (fun _ h => h.doneClass k) ht
  | rotateOnNonSpecificDone => exact .commanded Attention.rotateFirst (fun _ h => h.rotateFirst) ht
  | rotateOnSpecificDone k => exact .commanded (fun a => a.rotateClass k) (fun _ h => h.rotateClass k) ht
  | setLowest k => exact .commanded (fun a => a.setLowest k) (fun _ h => h.setLowest k) ht
  | maskWrite w => exact .event (fun u => .writeMask u w) ht
  | modeWrite w => exact .event (fun u => .writeMode u w) ht
  | masterCycleArrival c =>
    cases hp : s.pins.porn with
    | true =>
      have running : Machine.exec (.masterCycleArrival c) s = Machine.event (fun s => s.arrive c) s :=
        if_pos hp
      exact .event (fun u => .arrive u c) (running.symm.trans ht)
    | false =>
      have held : Machine.exec (.masterCycleArrival c) s = .next (s.present c) :=
        if_neg (by simp [hp])
      cases held.symm.trans ht
      exact .of_frame (s.frame_present c)
  | masterCycleEnd => exact .event (fun u => .endCycle u) ht
  | writeRefused m o => exact .event (fun u => .writeRefused u m o) ht
  | latchRead => exact .readEvent (fun u => .of_frame u.frame_readLatch) ht
  | planStart w => exact .event (fun u => .writePlanStart u w) ht
  | planWord w => exact .event (fun u => .writePlanWord u w) ht
  | powerOnReset =>
    cases ht
    exact fun _ => Attention.sound_reset
  | powerOnResetRelease straps p q =>
    cases ht
    have released : SubjectsKept s (s.released straps p q) := .trans .untouched (.arrivals _ _)
    exact .ite (.refl s) (released.trans .untouched)
  | busReset => exact .event (fun _ _ => Attention.sound_reset) ht

theorem SubjectsKept.step {s t : State} (h : step s = .next t) : SubjectsKept s t := by
  rcases step_cases h with ⟨i, rest, ht⟩ | rfl
  · have taken : SubjectsKept s { s with pending := rest } := .untouched
    exact taken.trans (.exec ht)
  · exact .of_frame s.frame_microsecond

/-! ## Every step keeps ATTN exact (R146) -/

theorem attnExact_refreshAttn (s : State) : AttnExact s.refreshAttn := rfl

/-- An event ends with ATTN brought into line; one held by PORN changes nothing. -/
theorem AttnExact.event {s : State} (h : AttnExact s) (u : State) :
    AttnExact (if s.pins.porn then u.refreshAttn else s) := by
  split
  · exact attnExact_refreshAttn u
  · exact h

/-- A cycle that waits for the release of PORN touches neither the controller nor ATTN. -/
theorem AttnExact.present {s : State} (h : AttnExact s) (c : Cycle) : AttnExact (s.present c) := by
  simp only [State.present]
  split
  · exact h
  · cases c.master with
    | processor => exact h
    | scanner => exact h

theorem AttnExact.microsecond {s : State} (h : AttnExact s) : AttnExact s.microsecond := by
  simp only [State.microsecond]
  split
  · split
    · exact h
    · exact h
  · exact h

/-- Every command is an event, but for a cycle that only waits and for the power-on reset and its release. -/
theorem AttnExact.exec {i : Instr} {s t : State} (h : AttnExact s) (ht : exec i s = .next t) :
    AttnExact t := by
  cases i with
  | masterCycleArrival c =>
    simp only [Machine.exec, execMasterCycleArrival] at ht
    split at ht
    · cases ht
      exact h.event _
    · cases ht
      exact h.present c
  | powerOnReset =>
    cases ht
    exact Attention.anyPollable_reset.symm
  | powerOnResetRelease straps p q =>
    cases ht
    split
    · exact h
    · exact attnExact_refreshAttn _
  | _ =>
    cases ht
    exact h.event _

theorem AttnExact.step {s t : State} (h : AttnExact s) (ht : step s = .next t) : AttnExact t := by
  rcases step_cases ht with ⟨i, rest, taken⟩ | rfl
  · have waiting : AttnExact { s with pending := rest } := h
    exact waiting.exec taken
  · exact h.microsecond

/-- Settles O56: an event ends with ATTN brought into line, and the controller changes only by entries given,
taken away, put in service or ended. -/
theorem everyStepKeepsAttentionExact : Obligations.EveryStepKeepsAttentionExact :=
  ⟨fun _ _ h ht => h.step ht,
    fun _ _ h ht => subjectsOnce_iff.mpr (SubjectsKept.step ht (subjectsOnce_iff.mp h))⟩

end Sys2Proof.Machine
end

section
/-!
PROOFS. The refused-write latch (R161, R162), and what PORN holds until its release (R155, R156, R177).
-/

namespace Sys2Proof.Machine

-- One proof after another: a default `by` argument waits for every earlier proof of the text.
set_option Elab.async false

/-! ## The refused-write latch (R161, R162) -/

/-- The latch cell in R172's layout. -/
theorem Latch.word_eq (l : Latch) : l.word = if l.valid then 1#1 ++ l.offset else 0#16 := by
  simp only [Latch.word]
  split
  · refine Eq.trans ?_ (setWidth_shift_zero _)
    simp only [packWord_cons, packWord_nil, ofNat_setWidth (v := 1) (k := 1) (by decide),
      BitVec.ofNat_toNat, BitVec.or_zero]
    simp only [setWidth_append_shift]
  · rfl

/-- Settles O9: a refused write as the latch records it, and the read that clears it. -/
theorem theLatchRecordsRefusedWrites : Obligations.TheLatchRecordsRefusedWrites := by
  refine ⟨fun m o s running refuses => ?_, fun s running => ?_⟩
  · exact .refused (f := fun s => s.writeRefused m o) rfl running (if_pos refuses)
  · refine .of_readEvent State.readLatch rfl running ⟨s.bus.latch.word_eq, rfl, ?_⟩
    exact ((s.frame_readLatch.mono (by decide)).step (State.frame_setBd _ _)).step
      (State.frame_refreshAttn _)

/-! ## While PORN is low (R156, R177) -/

/-- Every command but a reset, its release and a cycle presented is an event, which PORN holds. -/
theorem exec_held {i : Instr} {s : State} (held : s.pins.porn = false) (reset : i ≠ .powerOnReset)
    (release : ∀ st p q, i ≠ .powerOnResetRelease st p q) (arrival : ∀ c, i ≠ .masterCycleArrival c) :
    exec i s = .next s := by
  have low : ¬ s.pins.porn = true := by simp [held]
  cases i with
  | powerOnReset => exact absurd rfl reset
  | powerOnResetRelease st p q => exact absurd rfl (release st p q)
  | masterCycleArrival c => exact absurd rfl (arrival c)
  | _ => exact congrArg Host.Outcome.next (if_neg low)

theorem exec_masterCycleArrival_held {s : State} (c : Cycle) (held : s.pins.porn = false) :
    exec (.masterCycleArrival c) s = .next (s.present c) := if_neg (by simp [held])

theorem State.present_again {s : State} {c : Cycle} (h : ∃ d ∈ s.pins.presented, d.master = c.master) :
    s.present c = s := if_pos (by simpa using h)

theorem State.present_first {s : State} {c : Cycle} (h : ∀ d ∈ s.pins.presented, d.master ≠ c.master) :
    s.present c = { s with pins :=
      { s.pins.setBrdy c.master false with presented := s.pins.presented ++ [c] } } := by
  simp only [State.present, State.pins_setBrdy, Pins.presented_setBrdy]
  exact if_neg (by simpa using h)

/-- A presented cycle leaves the levels of PORN and ATTN. -/
theorem State.levels_present (s : State) (c : Cycle) :
    (s.present c).pins.porn = s.pins.porn ∧ (s.present c).pins.attn = s.pins.attn := by
  simp only [State.present]
  split
  · exact ⟨rfl, rfl⟩
  · exact ⟨s.pins.porn_setBrdy c.master false, s.pins.attn_setBrdy c.master false⟩

/-- A cycle presented while PORN is low waits on BREQ, one for each master, with its BRDY low. -/
theorem Completes.presented {s : State} (c : Cycle) (held : s.pins.porn = false) :
    Completes (.masterCycleArrival c) s fun t =>
      SameBut [.porn, .brdy] s t ∧ t.pins.porn = false ∧ t.pins.attn = s.pins.attn
      ∧ ((∃ d ∈ s.pins.presented, d.master = c.master) →
          t.pins.presented = s.pins.presented ∧ SameBut [] s t)
      ∧ ((∀ d ∈ s.pins.presented, d.master ≠ c.master) →
          t.pins.presented = s.pins.presented ++ [c] ∧ t.pins.brdy c.master = false
          ∧ ∀ m, m ≠ c.master → t.pins.brdy m = s.pins.brdy m) := by
  obtain ⟨porn, attn⟩ := s.levels_present c
  have brdy := fun m => s.pins.brdy_setBrdy c.master m false
  refine ⟨_, exec_masterCycleArrival_held c held, s.frame_present c, porn.trans held, attn,
    fun again => ?_, fun first => ?_⟩
  · rw [State.present_again again]
    exact ⟨rfl, SameBut.refl _ s⟩
  · rw [State.present_first first]
    exact ⟨rfl, (brdy c.master).trans (if_pos rfl), fun m other => (brdy m).trans (if_neg other)⟩

/-! ## The rise of PORN (R155, R156) -/

/-- The blocks the arrival of a cycle can change. -/
abbrev arrivalBlocks : List Block := .brdy :: .memorySide :: takenBlocks

theorem State.frame_takeCycle (s : State) (c : Cycle) :
    SameBut (.memorySide :: takenBlocks) s (s.takeCycle c) :=
  ((s.frame_classify c).mono (by decide)).step (State.frame_setOwner _ _)

theorem State.frame_arrive (s : State) (c : Cycle) : SameBut arrivalBlocks s (s.arrive c) := by
  have arrived : SameBut arrivalBlocks s ((s.setBrdy c.master false).closeWindowAt c) :=
    ((s.frame_setBrdy c.master false).mono (by decide)).step (State.frame_closeWindowAt _ c)
  exact .ite (SameBut.refl _ s)
    (.ite (arrived.step (State.frame_takeCycle _ c)) (arrived.step (State.frame_enqueueCycle _ c)))

theorem State.frame_arrivals (s : State) (cs : List Cycle) :
    SameBut arrivalBlocks s (cs.foldl State.arrive s) := by
  induction cs generalizing s with
  | nil => exact SameBut.refl _ s
  | cons c cs ih => exact (s.frame_arrive c).trans (ih _)

/-- The part as its release finds it, the straps sampled and no cycle taken yet (R155). -/
def State.outOfReset (s : State) (st : BitVec 3) : State :=
  { s with bus := { s.bus with strap := st }, pins := { s.pins with porn := true, presented := [] } }

theorem State.frame_outOfReset (s : State) (st : BitVec 3) :
    SameBut [.strap, .porn] s (s.outOfReset st) := by
  intro b hb
  cases b <;> first
    | exact absurd (by decide) hb
    | simp [Block.same, State.outOfReset]

theorem State.released_eq (s : State) (st : BitVec 3) (p q : Bool) :
    s.released st p q = (s.stillPresented p q).foldl State.arrive (s.outOfReset st) := rfl

theorem exec_powerOnResetRelease_held {s : State} (st : BitVec 3) (p q : Bool)
    (held : s.pins.porn = false) :
    exec (.powerOnResetRelease st p q) s = .next (s.released st p q).refreshAttn :=
  congrArg Host.Outcome.next (if_neg (by simp [held]))

/-- A part that is out of reset has no release (log 27). -/
theorem exec_powerOnResetRelease_running {s : State} (st : BitVec 3) (p q : Bool) (running : Running s) :
    exec (.powerOnResetRelease st p q) s = .next s := congrArg Host.Outcome.next (if_pos running)

/-- Settles O4: the commands PORN holds, a cycle presented, and the release with the cycles it takes. -/
theorem pornHoldsThePartUntilItsRelease : Obligations.PornHoldsThePartUntilItsRelease := by
  refine ⟨⟨fun i s => exec_held, fun c s => .presented c⟩, fun st p q s held => ?_,
    fun st p q s => exec_powerOnResetRelease_running st p q⟩
  have arrivals := (s.outOfReset st).frame_arrivals (s.stillPresented p q)
  obtain ⟨porn, presented⟩ := arrivals .porn (by decide)
  refine ⟨_, exec_powerOnResetRelease_held st p q held, arrivals .strap (by decide), porn, presented, rfl,
    fun none => ?_, fun c one => ?_, fun c d two => ?_⟩
  · rw [State.released_eq, none]
    exact (s.frame_outOfReset st).step (State.frame_refreshAttn _)
  · rw [State.released_eq, one]
    rfl
  · rw [State.released_eq, two]
    rfl

end Sys2Proof.Machine
end

section
/-!
PROOFS. A cycle taken inside the line area runs the row of its command (R157, R158, R172; log 1).
-/

namespace Sys2Proof.Machine

-- One proof after another: a default `by` argument waits for every earlier proof of the text.
set_option Elab.async false

/-! ## The regions of numbered cells (R157, R172) -/

theorem region_command (n : LineNo) : region (BitVec.ofNat 15 n.val) = .commandWord n := by
  revert n; decide

theorem region_status (n : LineNo) : region (BitVec.ofNat 15 (0x040 + n.val)) = .statusWord n := by
  revert n; decide

theorem region_setting (n : LineNo) : region (BitVec.ofNat 15 (0x100 + n.val)) = .setting n := by
  revert n; decide

theorem region_sessionStatus (n : LineNo) :
    region (BitVec.ofNat 15 (0x300 + 4 * n.val)) = .sessionStatus n 0 := by
  revert n; decide

theorem region_staging (i : Fin 16) : region (BitVec.ofNat 15 (0x200 + i.val)) = .staging i := by
  revert i; decide

/-- The Meter Unit's cells stand from 0E0h on (R172). -/
theorem region_table {k : Nat} (inside : k < 0x20) : region (BitVec.ofNat 15 (0x0E0 + k)) = tableCell k := by
  have number : (BitVec.ofNat 15 (0x0E0 + k)).toNat = 0x0E0 + k := by
    rw [BitVec.toNat_ofNat]
    omega
  rw [region, number, regionOf]
  repeat rw [if_neg (by omega)]
  rw [if_pos (by omega), Nat.add_sub_cancel_left]

theorem quarter_val (b : Fin 4) : quarter b.val = b := Fin.ext (Nat.mod_eq_of_lt b.isLt)

theorem region_tariff (b v : Fin 4) :
    region (BitVec.ofNat 15 (0x0E0 + 4 * b.val + v.val)) = .tariff b v := by
  have band : (4 * b.val + v.val) / 4 = b.val := by omega
  have speed : quarter (4 * b.val + v.val) = v := Fin.ext (by
    show (4 * b.val + v.val) % 4 = v.val
    omega)
  rw [Nat.add_assoc, region_table (by omega), tableCell, if_pos (by omega), band, quarter_val, speed]

theorem region_bandStart (b : Fin 4) : region (BitVec.ofNat 15 (0x0F0 + b.val)) = .bandStart b := by
  have band : quarter (16 + b.val) = b := Fin.ext (by
    show (16 + b.val) % 4 = b.val
    omega)
  rw [show 0x0F0 + b.val = 0x0E0 + (16 + b.val) by omega, region_table (by omega), tableCell,
    if_neg (by omega), if_pos (by omega), band]

theorem region_permit (c : AccountClass) :
    region (BitVec.ofNat 15 (0x0F5 + classCode c)) = .permit c := by
  have code := classCode_lt c
  rw [show 0x0F5 + classCode c = 0x0E0 + (21 + classCode c) by omega, region_table (by omega), tableCell,
    if_neg (by omega), if_neg (by omega), if_neg (by omega), if_pos (by omega), Nat.add_sub_cancel_left]
  cases c <;> rfl

/-- Each receive ring holds 32 entries from 400h on. -/
theorem region_receive (n : LineNo) (i : Fin 32) :
    region (BitVec.ofNat 15 (0x400 + 32 * n.val + i.val)) = .receiveRing n i := by
  have number : (BitVec.ofNat 15 (0x400 + 32 * n.val + i.val)).toNat = 0x400 + 32 * n.val + i.val := by
    rw [BitVec.toNat_ofNat]
    omega
  have line : lineOf ((0x400 + 32 * n.val + i.val - 0x400) / 32) = n := Fin.ext (by
    show (0x400 + 32 * n.val + i.val - 0x400) / 32 % 64 = n.val
    omega)
  have entry : (0x400 + 32 * n.val + i.val) % 32 = i.val := by omega
  rw [region, number, regionOf]
  repeat rw [if_neg (by omega)]
  rw [if_pos (by omega)]
  simp only [line, entry]

/-! ## Rows and takings -/

/-- Master m's write of w at an address does what the row does (log 1). -/
def WritesRow (s : State) (addr : Addr) (m : Master) (w : Word) (i : Instr) : Prop :=
  exec i s = .next
    (s.classify { master := m, addr := addr, write := true, data := w }).state.refreshAttn

/-- Master m's read at an address does what the row does, its word on BD (log 1). -/
def ReadsRow (s : State) (addr : Addr) (m : Master) (i : Instr) : Prop :=
  let c := s.classify { master := m, addr := addr, write := false, data := 0#16 }
  exec i s = .next (c.state.setBd c.data).refreshAttn

theorem State.classify_inside {s : State} (c : Cycle) {o : Offset}
    (ho : s.areaOffset c.addr = some o) : s.classify c = s.takeInside c o := by
  simp only [State.classify, ho]

theorem State.classify_write {s : State} {addr : Addr} {o : Offset} (ho : s.areaOffset addr = some o)
    (m : Master) (w : Word) :
    s.classify { master := m, addr := addr, write := true, data := w } =
      match m with
      | .processor => s.processorWrite o w
      | .scanner => s.scannerWrite o w := by
  rw [State.classify_inside { master := m, addr := addr, write := true, data := w } ho]
  cases m <;> rfl

theorem State.classify_read {s : State} {addr : Addr} {o : Offset} (ho : s.areaOffset addr = some o)
    (m : Master) (w : Word) :
    s.classify { master := m, addr := addr, write := false, data := w } =
      match m with
      | .processor => s.processorRead o
      | .scanner => s.scannerRead o := by
  rw [State.classify_inside { master := m, addr := addr, write := false, data := w } ho]
  cases m <;> rfl

section
variable {s : State} {addr : Addr} {o : Offset} {i : Instr} {f : State → State}
  {g : State → Word × State} {w : Word}

theorem WritesRow.processor (running : Running s) (ho : s.areaOffset addr = some o)
    (hexec : exec i s = event f s) (effect : (s.processorWrite o w).state = f s) :
    WritesRow s addr .processor w i := by
  rw [WritesRow, hexec, event_running f running, State.classify_write ho, ← effect]

theorem WritesRow.scanner (running : Running s) (ho : s.areaOffset addr = some o)
    (hexec : exec i s = event f s) (effect : (s.scannerWrite o w).state = f s) :
    WritesRow s addr .scanner w i := by
  rw [WritesRow, hexec, event_running f running, State.classify_write ho, ← effect]

theorem ReadsRow.processor (running : Running s) (ho : s.areaOffset addr = some o)
    (hexec : exec i s = readEvent g s) (effect : s.processorRead o = overlayWith (g s)) :
    ReadsRow s addr .processor i := by
  have row : exec i s = .next ((g s).2.setBd (g s).1).refreshAttn :=
    hexec.trans (event_running (fun s => (g s).2.setBd (g s).1) running)
  simp only [ReadsRow, row, State.classify_read ho, effect, overlayWith]

end

/-- A scanner's read of a command word returns the forced command or the word in memory (R11). -/
theorem State.scannerRead_command (s : State) (n : LineNo) :
    (s.scannerRead (commandOffset n)).data = (s.readCommand n).1
      ∧ (s.scannerRead (commandOffset n)).state = (s.readCommand n).2 := by
  have command : region (commandOffset n) = .commandWord n := region_command n
  simp only [State.scannerRead, command]
  split
  · rename_i passes
    rw [State.readCommand_passes (passes.imp_right Option.isNone_iff_eq_none.mp)]
    exact ⟨rfl, rfl⟩
  · exact ⟨rfl, rfl⟩

theorem ReadsRow.command {s : State} {addr : Addr} {n : LineNo} (running : Running s)
    (ho : s.areaOffset addr = some (commandOffset n)) :
    ReadsRow s addr .scanner (.commandWordRead n) := by
  obtain ⟨data, state⟩ := s.scannerRead_command n
  have row : exec (.commandWordRead n) s =
      .next ((s.readCommand n).2.setBd (s.readCommand n).1).refreshAttn :=
    event_running (fun s => (s.readCommand n).2.setBd (s.readCommand n).1) running
  simp only [ReadsRow, row, State.classify_read ho, data, state]

/-! ## Refused cells and the attention cell -/

/-- A write refused whatever the part's state is handed to the latch (R161). -/
theorem State.processorWrite_refused {s : State} {o : Offset} (w : Word)
    (refuses : refusesWrite .processor (region o) = true) :
    s.processorWrite o w = written .refuse (s.writeRefused .processor o) := by
  cases cell : region o <;> simp_all [State.processorWrite, refusesWrite]

theorem State.scannerWrite_refused {s : State} {o : Offset} (w : Word)
    (refuses : refusesWrite .scanner (region o) = true) :
    s.scannerWrite o w = written .refuse (s.writeRefused .scanner o) := by
  cases cell : region o <;> simp_all [State.scannerWrite, refusesWrite]

theorem WritesRow.refused {s : State} {addr : Addr} {o : Offset} {m : Master} (w : Word)
    (running : Running s) (ho : s.areaOffset addr = some o) (refuses : refusesWrite m (region o) = true) :
    WritesRow s addr m w (.writeRefused m o) := by
  cases m with
  | processor =>
    exact .processor (f := fun s => s.writeRefused .processor o) running ho rfl
      (congrArg Taken.state (State.processorWrite_refused w refuses))
  | scanner =>
    exact .scanner (f := fun s => s.writeRefused .scanner o) running ho rfl
      (congrArg Taken.state (State.scannerWrite_refused w refuses))

theorem State.processorWrite_attention (s : State) (w : Word) :
    (s.processorWrite attentionOffset w).state = s.writeAttention w := rfl

/-- The class of a command word (R171). -/
theorem commandClass_eq {w : Word} {k : ClassNo} (h : (w.extractLsb' 0 3).toNat = k.val) :
    commandClass w = k := by
  have class_lt : field w 0 3 < 8 := lt_of_eq_of_lt h k.isLt
  exact Fin.ext ((Nat.mod_eq_of_lt class_lt).trans h)

theorem attentionCode_eq {w : Word} {code : BitVec 3} (h : w.extractLsb' 8 3 = code) :
    attentionCode w = code.toNat := congrArg BitVec.toNat h

/-- The attention cell takes the command that the written word spells (R148). -/
theorem attentionWrites {s : State} {addr : Addr} (w : Word) (running : Running s)
    (ho : s.areaOffset addr = some attentionOffset) :
    (w.extractLsb' 8 3 = 1#3 → WritesRow s addr .processor w .nonSpecificDone)
    ∧ (w.extractLsb' 8 3 = 3#3 → WritesRow s addr .processor w .rotateOnNonSpecificDone)
    ∧ (∀ k : ClassNo, (w.extractLsb' 0 3).toNat = k.val →
        (w.extractLsb' 8 3 = 2#3 → WritesRow s addr .processor w (.specificDone k))
        ∧ (w.extractLsb' 8 3 = 4#3 → WritesRow s addr .processor w (.rotateOnSpecificDone k))
        ∧ (w.extractLsb' 8 3 = 5#3 → WritesRow s addr .processor w (.setLowest k)))
    ∧ (w.extractLsb' 8 3 = 0#3 ∨ w.extractLsb' 8 3 = 6#3 ∨ w.extractLsb' 8 3 = 7#3 →
        Latched .processor attentionOffset s
          (s.classify { master := .processor, addr := addr, write := true, data := w }).state) := by
  have row {i : Instr} {f : Attention → Attention}
      (hexec : exec i s = event (fun s => s.setAttention (f s.attention)) s)
      (code : s.writeAttention w = s.setAttention (f s.attention)) : WritesRow s addr .processor w i :=
    .processor (f := fun s => s.setAttention (f s.attention)) running ho hexec code
  refine ⟨fun h => row (f := Attention.doneFirst) rfl ?_, fun h => row (f := Attention.rotateFirst) rfl ?_,
    fun k hk => ⟨fun h => row (f := fun a => a.doneClass k) rfl ?_,
      fun h => row (f := fun a => a.rotateClass k) rfl ?_,
      fun h => row (f := fun a => a.setLowest k) rfl ?_⟩, fun h => ?_⟩
  case refine_6 =>
    have refused : s.writeAttention w = s.refuse .processor attentionOffset := by
      rcases h with h | h | h <;> simp [State.writeAttention, attentionCode_eq h]
    rw [State.classify_write ho]
    have state := (s.processorWrite_attention w).trans refused
    exact state ▸ s.latched_refuse .processor attentionOffset
  case refine_1 | refine_2 => simp [State.writeAttention, attentionCode_eq h]
  all_goals simp [State.writeAttention, attentionCode_eq h, commandClass_eq hk]

/-! ## The cells of a line -/

theorem lineCellsRunTheirRows {s : State} {addr : Addr} {o : Offset} (running : Running s)
    (ho : s.areaOffset addr = some o) (n : LineNo) (w : Word) :
    (o = BitVec.ofNat 15 n.val → WritesRow s addr .scanner w (.acknowledge n w)
      ∧ WritesRow s addr .processor 0x0002#16 (.processorHangUp n)
      ∧ ReadsRow s addr .scanner (.commandWordRead n))
    ∧ (o = BitVec.ofNat 15 (0x040 + n.val) → WritesRow s addr .scanner w (.statusWrite n w))
    ∧ (o = BitVec.ofNat 15 (0x100 + n.val) →
        WritesRow s addr .processor w (if w.getLsbD 2 then .modeLoad n w else .hangRequest n w))
    ∧ (o = BitVec.ofNat 15 (0x300 + 4 * n.val) → ReadsRow s addr .processor (.sessionStatusRead n))
    ∧ (∀ i : Fin 32, o = BitVec.ofNat 15 (0x400 + 32 * n.val + i.val) →
        WritesRow s addr .scanner w (.receiveEntry n i w))
    ∧ (o = BitVec.ofNat 15 (0x2000 + n.val) → WritesRow s addr .processor w (.transmitPutWrite n w))
    ∧ (o = BitVec.ofNat 15 (0x2040 + n.val) →
        WritesRow s addr .scanner w (.transmitTakeWrite n w)) := by
  refine ⟨?_, ?_, ?_, ?_, fun i => ?_, ?_, ?_⟩
  · rintro rfl
    refine ⟨.scanner (f := fun s => s.acknowledge n w) running ho rfl ?_,
      .processor (f := fun s => s.processorCommand n hangUpCode) running ho rfl ?_, .command running ho⟩
    · simp only [State.scannerWrite, region_command, written]
    · simp only [State.processorWrite, region_command, written, hangUpCode]
  · rintro rfl
    refine .scanner (f := fun s => s.statusWritten n w) running ho rfl ?_
    simp only [State.scannerWrite, region_status, written]
  · rintro rfl
    have row : exec (if w.getLsbD 2 then .modeLoad n w else .hangRequest n w) s
        = event (fun s => s.writeSetting n w) s := by split <;> rfl
    refine .processor running ho row ?_
    simp only [State.processorWrite, region_setting, takenWrite, written]
  · rintro rfl
    refine .processor (g := fun s => s.readStatus0 n) running ho rfl ?_
    simp only [State.processorRead, region_sessionStatus]
  · rintro rfl
    refine .scanner (f := fun s => s.receive n i w) running ho rfl ?_
    simp only [State.scannerWrite, region_receive, written]
  · rintro rfl
    have cell : region (BitVec.ofNat 15 (0x2000 + n.val)) = .transmitPut n := region_put n
    refine .processor (f := fun s => s.writePut n w) running ho rfl ?_
    simp only [State.processorWrite, cell, written]
  · rintro rfl
    have cell : region (BitVec.ofNat 15 (0x2040 + n.val)) = .transmitTake n := region_take n
    refine .scanner (f := fun s => s.writeTake n w) running ho rfl ?_
    simp only [State.scannerWrite, cell, written]

/-! ## The part cells -/

theorem WritesRow.permit {s : State} {addr : Addr} {o : Offset} {c : AccountClass} (w : Word)
    (running : Running s) (ho : s.areaOffset addr = some o) (cell : region o = .permit c) :
    WritesRow s addr .processor w (.permitWrite c w) := by
  refine .processor (f := fun s => s.writePermit c w) running ho rfl ?_
  simp only [State.processorWrite, cell, takenWrite, written]

/-- Settles O52: the cells of a line, the attention cell by its command, the other cells by their region,
and the cells that refuse the master. -/
theorem aTakenCycleRunsItsRow : Obligations.ATakenCycleRunsItsRow := by
  intro s addr o running ho
  refine ⟨lineCellsRunTheirRows running ho, fun w => ⟨?_, ?_, ?_, ?_, ?_, ?_, ?_, ?_, ?_, ?_, ?_, ?_, ?_,
    fun b v => ?_, fun b => ?_, ?_, ?_, ?_, ?_, fun i => ?_, fun m => WritesRow.refused w running ho⟩⟩
  · rintro rfl
    obtain ⟨first, rotateFirst, classes, unassigned⟩ := attentionWrites w running ho
    exact ⟨first, rotateFirst, classes, unassigned,
      ReadsRow.processor (g := State.readAttention) running ho rfl rfl⟩
  · rintro rfl; exact WritesRow.processor (f := fun s => s.writeMask w) running ho rfl rfl
  · rintro rfl; exact WritesRow.processor (f := fun s => s.writeMode w) running ho rfl rfl
  · rintro rfl; exact WritesRow.processor (f := fun s => s.writePlanStart w) running ho rfl rfl
  · rintro rfl; exact WritesRow.processor (f := fun s => s.writePlanWord w) running ho rfl rfl
  · rintro rfl; exact WritesRow.processor (f := fun s => s.writeTail w) running ho rfl rfl
  · rintro rfl; exact ReadsRow.processor (g := State.readLatch) running ho rfl rfl
  · rintro rfl
    exact ⟨WritesRow.processor (f := fun s => s.startCensus w) running ho rfl rfl,
      ReadsRow.processor (g := State.readCensus) running ho rfl rfl⟩
  · rintro rfl; exact WritesRow.processor (f := fun s => s.writeCommit w) running ho rfl rfl
  · rintro rfl; exact WritesRow.processor (f := fun s => s.writeClockMinute w) running ho rfl rfl
  · rintro rfl; exact WritesRow.processor (f := fun s => s.writeClockDay w) running ho rfl rfl
  · rintro rfl; exact WritesRow.scanner (f := fun s => s.sweepMarked w) running ho rfl rfl
  · rintro rfl; exact WritesRow.processor (f := fun s => s.writeWeekend w) running ho rfl rfl
  · rintro rfl
    refine WritesRow.processor (f := fun s => s.writeTariff b v w) running ho rfl ?_
    simp only [State.processorWrite, region_tariff, takenWrite, written]
  · rintro rfl
    refine WritesRow.processor (f := fun s => s.writeBandStart b w) running ho rfl ?_
    simp only [State.processorWrite, region_bandStart, takenWrite, written]
  · rintro rfl; exact WritesRow.permit w running ho (region_permit .student)
  · rintro rfl; exact WritesRow.permit w running ho (region_permit .staff)
  · rintro rfl; exact WritesRow.permit w running ho (region_permit .guest)
  · rintro rfl; exact WritesRow.permit w running ho (region_permit .operator)
  · rintro rfl
    refine WritesRow.processor (f := fun s => s.writeStaging i w) running ho rfl ?_
    simp only [State.processorWrite, region_staging, written]

end Sys2Proof.Machine
end

section
/-!
SUPPORT. Where the regions of the line area lie, and R157's table of actions read by region.
-/

namespace Sys2Proof.Machine

-- One proof after another: a default `by` argument waits for every earlier proof of the text.
set_option Elab.async false

/-! ## The place of a region (R157, R172) -/

/-- The number of an offset in the region. -/
def Region.place (r : Region) (k : Nat) : Prop :=
  match r with
  | .commandWord n => k = n.val
  | .statusWord n => k = 0x040 + n.val
  | .attention => k = 0x0C0
  | .mask => k = 0x0C1
  | .mode => k = 0x0C2
  | .planStart => k = 0x0C3
  | .planWord => k = 0x0C4
  | .partStatus => k = 0x0C5
  | .head => k = 0x0C6
  | .tail => k = 0x0C7
  | .latch => k = 0x0C8
  | .census => k = 0x0C9
  | .commit => k = 0x0CA
  | .receiptTarget => k = 0x0CB
  | .receiptState => k = 0x0CC
  | .receiptCheck => k = 0x0CD
  | .clockMinute => k = 0x0CE
  | .clockDay => k = 0x0CF
  | .sweepMarker => k = 0x0D0
  | .credit => k = 0x0D1
  | .tariff b v => k = 0x0E0 + 4 * b.val + v.val
  | .bandStart b => k = 0x0F0 + b.val
  | .weekend => k = 0x0F4
  | .permit c => k = 0x0F5 + classCode c
  | .setting n => k = 0x100 + n.val
  | .staging i => k = 0x200 + i.val
  | .sessionStatus n i => k = 0x300 + 4 * n.val + i.val
  | .receiveRing n i => k = 0x400 + 32 * n.val + i.val
  | .receiveIndex n => k = 0xC00 + n.val
  | .transmitRing n => 0x1000 + 64 * n.val ≤ k ∧ k < 0x1040 + 64 * n.val
  | .transmitPut n => k = 0x2000 + n.val
  | .transmitTake n => k = 0x2040 + n.val
  | .journal => 0x4000 ≤ k
  | .plain => 0x080 ≤ k ∧ k < 0x0C0 ∨ 0x0D2 ≤ k ∧ k < 0x0E0 ∨ 0x0F9 ≤ k ∧ k < 0x100
      ∨ 0x140 ≤ k ∧ k < 0x200 ∨ 0x210 ≤ k ∧ k < 0x300 ∨ 0xC40 ≤ k ∧ k < 0x1000
      ∨ 0x2080 ≤ k ∧ k < 0x4000

theorem lineOf_val (i : Nat) : (lineOf i).val = i % 64 := rfl

theorem val_quarter (i : Nat) : (quarter i).val = i % 4 := rfl

theorem place_partCell {k d : Nat} (distance : k = 0x0C0 + d) (inside : d < 0x20) :
    (partCell d).place k := by
  simp only [partCell]
  split
  case h_19 =>
    simp only [imp_false] at *
    simp only [Region.place]
    omega
  all_goals
    simp only [Region.place]
    omega

theorem classCode_classOfCode (i : Nat) : classCode (classOfCode i) = i % 4 := by
  have four : i % 4 < 4 := Nat.mod_lt _ (by decide)
  simp only [classOfCode]
  split <;> simp only [classCode, imp_false] at * <;> omega

theorem place_tableCell {k d : Nat} (distance : k = 0x0E0 + d) (inside : d < 0x20) :
    (tableCell d).place k := by
  simp only [tableCell]
  split_ifs <;> simp only [Region.place, val_quarter, classCode_classOfCode] <;> omega

theorem Region.place_ite {c : Prop} [Decidable c] {r r' : Region} {k : Nat} (h : c → r.place k)
    (h' : ¬ c → r'.place k) : (if c then r else r').place k := by
  by_cases hc : c
  · rw [if_pos hc]
    exact h hc
  · rw [if_neg hc]
    exact h' hc

/-- An offset lies at the place of its region. -/
theorem place_region (o : Offset) : (region o).place o.toNat := by
  have inside : o.toNat < 0x8000 := o.isLt
  rw [region]
  generalize o.toNat = k at inside ⊢
  rw [regionOf]
  repeat' with_reducible refine Region.place_ite (fun _ => ?_) fun _ => ?_
  case refine_2.refine_2.refine_2.refine_1 =>
    generalize distance : k - 0x0C0 = d
    exact place_partCell (by omega) (by omega)
  case refine_2.refine_2.refine_2.refine_2.refine_1 =>
    generalize distance : k - 0x0E0 = d
    exact place_tableCell (by omega) (by omega)
  all_goals simp only [Region.place, lineOf_val, val_quarter]
  all_goals omega

/-! ## R157's table by region -/

theorem spans_iff {lo hi : Nat} {o : Offset} : spans lo hi o = true ↔ lo ≤ o.toNat ∧ o.toNat ≤ hi := by
  simp [spans]

theorem among_iff {os : List Nat} {o : Offset} : among os o = true ↔ o.toNat ∈ os := by
  simp [among]

/-- The region is a line's command word. -/
def Region.isCommand (r : Region) : Bool :=
  match r with
  | .commandWord _ => true
  | _ => false

/-- The region is a line's status word. -/
def Region.isStatus (r : Region) : Bool :=
  match r with
  | .statusWord _ => true
  | _ => false

/-- The region is an entry of a receive ring. -/
def Region.isEntry (r : Region) : Bool :=
  match r with
  | .receiveRing _ _ => true
  | _ => false

/-- A write by this master is watched on its way to memory, whatever the part's state (R157). -/
def Region.isWatched (r : Region) (m : Master) : Bool :=
  match r, m with
  | .staging _, .processor | .transmitPut _, .processor | .sweepMarker, .scanner
  | .transmitTake _, .scanner => true
  | _, _ => false

/-- A processor read is overlaid (R157). -/
def Region.isOverlaid (r : Region) : Bool :=
  match r with
  | .attention | .mask | .mode | .partStatus | .head | .tail | .latch | .census | .receiptTarget
  | .receiptState | .receiptCheck | .clockMinute | .clockDay | .credit | .tariff _ _ | .bandStart _
  | .weekend | .permit _ | .setting _ | .sessionStatus _ _ => true
  | _ => false

/-- The numbers of R157's table pick out an offset by its region. A taking cell is one at which the
scanner's writes are refused and the processor's are not. -/
structure ListedByRegion (o : Offset) (r : Region) : Prop where
  command : spans 0x000 0x03F o = true ↔ r.isCommand = true
  status : spans 0x040 0x07F o = true ↔ r.isStatus = true
  entry : spans 0x400 0xBFF o = true ↔ r.isEntry = true
  readOnly : readOnlyCells o = true ↔ refusesWrite .processor r = true
  taking : takingCells o = true ↔ refusesWrite .scanner r = true ∧ refusesWrite .processor r = false
  processorWatched : (spans 0x200 0x20F o || spans 0x2000 0x203F o) = true ↔ r.isWatched .processor = true
  scannerWatched : (among [0x0D0] o || spans 0x2040 0x207F o) = true ↔ r.isWatched .scanner = true
  overlaid : (among [0x0C0, 0x0C1, 0x0C2, 0x0C7, 0x0C9, 0x0CE, 0x0CF] o || settingCells o
      || (readOnlyCells o && !spans 0x4000 0x7FFF o)) = true ↔ r.isOverlaid = true

theorem listedByRegion_of_place {o : Offset} {r : Region} (place : r.place o.toNat) :
    ListedByRegion o r := by
  have inside : o.toNat < 0x8000 := o.isLt
  cases r
  case' permit c => cases c
  all_goals
    simp only [Region.place, classCode] at place
    constructor <;>
      simp only [Bool.or_eq_true, Bool.and_eq_true, Bool.not_eq_true', ← Bool.not_eq_true,
        readOnlyCells, takingCells, settingCells, spans_iff, among_iff, List.mem_cons, List.not_mem_nil,
        or_false, Region.isCommand, Region.isStatus, Region.isEntry, Region.isWatched,
        Region.isOverlaid, refusesWrite, Bool.false_eq_true, not_true_eq_false,
        and_true, and_false, iff_true, iff_false] <;>
      omega

theorem listedByRegion (o : Offset) : ListedByRegion o (region o) :=
  listedByRegion_of_place (place_region o)

end Sys2Proof.Machine
end

section
/-!
PROOFS. R157's table: the action a cycle receives at its taking, and what it lets reach memory (R155,
R157).
-/

namespace Sys2Proof.Machine

-- One proof after another: a default `by` argument waits for every earlier proof of the text.
set_option Elab.async false

/-! ## The table's words and the model's -/

theorem LineRecord.leftAlone_eq (r : LineRecord) : r.leftAlone = r.state.leavesCycles := by
  cases state : r.state <;> simp [LineRecord.leftAlone, state, LineState.leavesCycles]

/-- The forced command that the table names is the one a read finds (R11). -/
theorem LineRecord.hasCommand_eq (r : LineRecord) : r.hasCommand = r.commandRead.1.isSome := by
  simp only [LineRecord.hasCommand, LineRecord.commandRead]
  cases r.forced with
  | none => rfl
  | some f =>
    cases awaiting : f.awaiting with
    | some k => simp [awaiting]
    | none =>
      simp only [awaiting, Option.isSome_none, Bool.false_or]
      change r.deliverable f = _
      cases due : r.deliverable f <;> simp

theorem State.isSome_awaitedBy {s : State} {n : LineNo} (h : (s.line n).state.leavesCycles = false) :
    (s.awaitedBy n).isSome = (s.line n).forced.any fun f => f.awaiting.isSome := by
  simp only [State.awaitedBy, h]
  cases (s.line n).forced <;> rfl

/-- R46's test as the table has it: a typed character or a mark. -/
theorem mustMask_eq (w : Word) : mustMask w =
    (spans 0x21 0x7E ((w.extractLsb' 0 7).setWidth 15) || w.extractLsb' 8 3 != 0#3) := by
  rw [Bool.eq_iff_iff, mustMask_iff, Bool.or_eq_true, spans_iff, BitVec.toNat_setWidth_of_le (by decide),
    bne_iff_ne]

theorem State.commandAction_eq (s : State) (n : LineNo) : s.commandAction n =
    if (s.line n).leftAlone then .pass
    else if (s.line n).forced.any (fun f => f.awaiting.isSome) then .take else .watch := by
  rw [State.commandAction, LineRecord.leftAlone_eq]
  cases leaves : (s.line n).state.leavesCycles with
  | true => rfl
  | false => rw [State.isSome_awaitedBy leaves]

theorem State.receiveAction_eq (s : State) (n : LineNo) (w : Word) : s.receiveAction n w =
    if (s.line n).state = .passive then .pass
    else if (s.line n).state = .password && mustMask w then .alter else .watch := by
  cases state : (s.line n).state <;> simp [State.receiveAction, state]

theorem lineOf_eq {k : Nat} {n : LineNo} (h : k % 64 = n.val) : lineOf k = n := Fin.ext h

theorem place_of_region {o : Offset} {r : Region} (cell : region o = r) : r.place o.toNat :=
  cell ▸ place_region o

theorem offset_of_place {o : Offset} {k : Nat} (h : o.toNat = k) : o = BitVec.ofNat 15 k := by
  rw [← h, BitVec.ofNat_toNat, BitVec.setWidth_eq]

/-! ## The actions (R157) -/

section
variable (s : State) (a : Addr) (o : Offset) (w : Word)

theorem State.action_processorRead : (s.processorRead o).action =
    tableAction s { master := .processor, addr := a, write := false, data := w } o := by
  simp only [tableAction, (listedByRegion o).overlaid]
  cases cell : region o <;> simp only [State.processorRead, cell]
  case sessionStatus n k => fin_cases k <;> rfl
  all_goals rfl

theorem State.action_scannerRead : (s.scannerRead o).action =
    tableAction s { master := .scanner, addr := a, write := false, data := w } o := by
  simp only [tableAction, Bool.and_eq_true, (listedByRegion o).command]
  cases cell : region o <;> simp only [State.scannerRead, cell]
  case commandWord n =>
    have number : o.toNat = n.val := place_of_region cell
    have line : lineOf (o.toNat / 1) = n := lineOf_eq (by omega)
    simp only [line, LineRecord.leftAlone_eq, LineRecord.hasCommand_eq]
    cases (s.line n).state.leavesCycles <;> cases (s.line n).commandRead.1 <;> rfl
  all_goals rfl

theorem State.action_processorWrite : (s.processorWrite o w).action =
    tableAction s { master := .processor, addr := a, write := true, data := w } o := by
  have listed := listedByRegion o
  simp only [tableAction, listed.command, listed.taking, listed.processorWatched, listed.readOnly]
  cases cell : region o <;> simp only [State.processorWrite, cell]
  case commandWord n =>
    have number : o.toNat = n.val := place_of_region cell
    have line : lineOf (o.toNat / 1) = n := lineOf_eq (by omega)
    simp only [line, LineRecord.leftAlone_eq]
    rfl
  all_goals rfl

theorem State.action_scannerWrite : (s.scannerWrite o w).action =
    tableAction s { master := .scanner, addr := a, write := true, data := w } o := by
  have listed := listedByRegion o
  simp only [tableAction, listed.command, listed.status, listed.entry, listed.scannerWatched,
    Bool.or_eq_true, listed.taking, listed.readOnly]
  cases cell : region o <;> simp only [State.scannerWrite, cell]
  case commandWord n =>
    have number : o.toNat = n.val := place_of_region cell
    have line : lineOf (o.toNat / 1) = n := lineOf_eq (by omega)
    simp only [line]
    exact s.commandAction_eq n
  case statusWord n =>
    have number : o.toNat = 0x040 + n.val := place_of_region cell
    have line : lineOf (o.toNat / 1) = n := lineOf_eq (by omega)
    simp only [line]
    rfl
  case receiveRing n i =>
    have number : o.toNat = 0x400 + 32 * n.val + i.val := place_of_region cell
    have line : lineOf ((o.toNat - 0x400) / 32) = n := lineOf_eq (by omega)
    simp only [line, ← mustMask_eq]
    exact s.receiveAction_eq n w
  all_goals rfl

end

theorem State.action_takeInside (s : State) (c : Cycle) (o : Offset) :
    (s.takeInside c o).action = tableAction s c o := by
  obtain ⟨master, addr, write, data⟩ := c
  cases write <;> cases master
  · exact s.action_processorRead addr o data
  · exact s.action_scannerRead addr o data
  · exact s.action_processorWrite addr o data
  · exact s.action_scannerWrite addr o data

/-! ## What a read leaves (R155, R157) -/

theorem SameBut.mem_eq {bs : List Block} {s t : State} (h : SameBut bs s t)
    (hb : .mem ∉ bs := by decide) : t.mem = s.mem := h .mem hb

/-- A read of the word at `a` passes, with memory's word and no effect, or is overlaid, and then memory is
as before. -/
def ReadDone (s : State) (a : Addr) (t : Taken) : Prop :=
  t.action = .pass ∧ t.data = s.readMem a ∧ t.state = s ∨ t.action = .overlay ∧ t.state.mem = s.mem

theorem ReadDone.passed (s : State) (o : Offset) : ReadDone s (s.areaAddr o) (passRead s o) :=
  .inl ⟨rfl, rfl, rfl⟩

theorem ReadDone.overlaid {s : State} (a : Addr) {r : Word × State} (h : r.2.mem = s.mem) :
    ReadDone s a (overlayWith r) := .inr ⟨rfl, h⟩

theorem State.readDone_processorRead (s : State) (o : Offset) :
    ReadDone s (s.areaAddr o) (s.processorRead o) := by
  simp only [State.processorRead]
  split
  case h_1 => exact .overlaid _ s.frame_readAttention.mem_eq
  case h_7 => exact .overlaid _ s.frame_readLatch.mem_eq
  case h_8 => exact .overlaid _ s.frame_readCensus.mem_eq
  case h_20 => exact .overlaid _ (s.frame_readStatus0 _).mem_eq
  all_goals first
    | exact .passed s o
    | exact .overlaid _ (rfl : (_, s).2.mem = s.mem)

theorem State.readDone_scannerRead (s : State) (o : Offset) :
    ReadDone s (s.areaAddr o) (s.scannerRead o) := by
  simp only [State.scannerRead]
  split
  · split
    · exact .passed s o
    · exact .overlaid _ (s.frame_readCommand _).mem_eq
  all_goals exact .passed s o

/-! ## What a write leaves (R155, R157) -/

/-- What each action lets a write of w to `a` do to memory; a passed write does nothing else. -/
inductive WriteDone (s : State) (a : Addr) (w : Word) (t : State) : Action → Prop where
  | passed (stored : t.mem = (s.writeMem a w).mem) (frame : SameBut [.mem] s t) : WriteDone s a w t .pass
  | watched (stored : t.mem = (s.writeMem a w).mem) : WriteDone s a w t .watch
  | altered (stored : t.mem = (s.writeMem a (w.extractLsb' 8 8 ++ s.fill)).mem) :
      WriteDone s a w t .alter
  | taken (kept : t.mem = s.mem) : WriteDone s a w t .take
  | refused (kept : t.mem = s.mem) : WriteDone s a w t .refuse

theorem State.writeDone_writeMem (s : State) (a : Addr) (w : Word) :
    WriteDone s a w (s.writeMem a w) .pass := .passed rfl (s.frame_writeMem a w)

theorem State.writeDone_writeArea (s : State) (o : Offset) (w : Word) :
    WriteDone s (s.areaAddr o) w (s.writeArea o w) .pass := s.writeDone_writeMem (s.areaAddr o) w

section
variable (s : State) (n : LineNo) (w : Word)

/-- The processor's command passes in OFF and PASSIVE, and else is acted on once it is in memory (R13). -/
theorem State.writeDone_processorCommand : WriteDone s (s.areaAddr (commandOffset n)) w
    (s.processorCommand n w) (s.processorCommandAction n) := by
  simp only [State.processorCommandAction]
  split
  · rename_i leaves
    have quiet : (s.line n).state.inDialogue = false ∧ (s.line n).state ≠ .signedOn := by
      rcases LineState.leavesCycles_iff.mp leaves with h | h <;> simp [h, LineState.inDialogue]
    rw [State.processorCommand_passes w quiet.1 quiet.2]
    exact s.writeDone_writeArea _ w
  · have acted : SameBut endBlocks (s.writeArea (commandOffset n) w) (s.processorCommand n w) :=
      .ite (State.frame_processorHangUp _ n) (.refl _ _)
    exact .watched acted.mem_eq

/-- Outside CLEARING a passing acknowledge leaves the record as it is (R12, R16). -/
theorem LineRecord.tested_passAck {r : LineRecord} (h : r.state ≠ .clearing) : r.passAck.tested = r := by
  have unseen : r.passAck = r := by simp [LineRecord.passAck, LineRecord.seeAck, h]
  rw [unseen]
  exact if_neg (by simp [LineRecord.clearingDone, h])

/-- An acknowledge in OFF and PASSIVE is a word written, and no more (R2). -/
theorem State.acknowledge_leaves {s : State} {n : LineNo} (w : Word)
    (leaves : (s.line n).state.leavesCycles = true) :
    s.acknowledge n w = s.writeArea (commandOffset n) w := by
  have unawaited : s.awaitedBy n = none := if_pos leaves
  have resting : (s.line n).state ≠ .clearing := by
    rcases LineState.leavesCycles_iff.mp leaves with h | h <;> simp [h]
  simp only [State.acknowledge, unawaited, State.updLine_eq, State.testClearing_setLine,
    State.line_writeArea, LineRecord.tested_passAck resting]
  exact State.setLine_line (s.writeArea (commandOffset n) w) n

/-- An acknowledge passes in OFF and PASSIVE, is taken where one is awaited, and else is seen on its way to
memory (R12). -/
theorem State.writeDone_acknowledge : WriteDone s (s.areaAddr (commandOffset n)) w
    (s.acknowledge n w) (s.commandAction n) := by
  simp only [State.commandAction]
  split
  · rename_i leaves
    rw [State.acknowledge_leaves w leaves]
    exact s.writeDone_writeArea _ w
  · cases awaited : s.awaitedBy n with
    | some k =>
      have taken : SameBut [.lines] s (s.acknowledge n w) := by
        simp only [State.acknowledge, awaited]
        exact (s.frame_updLine n _).step (State.frame_testClearing _ n)
      exact .taken taken.mem_eq
    | none =>
      have seen : SameBut [.lines] (s.writeArea (commandOffset n) w) (s.acknowledge n w) := by
        simp only [State.acknowledge, awaited]
        exact (State.frame_updLine _ n _).step (State.frame_testClearing _ n)
      exact .watched seen.mem_eq

/-- After a status word is in memory, its rules leave memory alone (R4). -/
theorem State.frame_statusSeen :
    SameBut statusBlocks (s.writeArea (statusOffset n) w) (s.statusWritten n w) := by
  have h := SameBut.refl statusBlocks (s.writeArea (statusOffset n) w)
  simp only [State.statusWritten]
  split
  · exact h
  · exact h.step (State.frame_updLine _ n _)
  all_goals
    refine SameBut.step ?_ (State.frame_testClearing _ n)
    refine SameBut.step ?_ (State.frame_setLastSeen _ n w)
    exact (h.step (State.frame_carrierRule _ n w)).step (State.frame_ringRule _ n w)

theorem State.writeDone_statusWritten : WriteDone s (s.areaAddr (statusOffset n)) w
    (s.statusWritten n w) (s.statusAction n) := by
  simp only [State.statusAction]
  split
  · rename_i passive
    have passed : s.statusWritten n w = s.writeArea (statusOffset n) w := by
      simp [State.statusWritten, passive]
    rw [passed]
    exact s.writeDone_writeArea _ w
  · exact .watched (s.frame_statusSeen n w).mem_eq

/-- A receive entry passes in PASSIVE and is altered in PASSWORD where R46 requires. -/
theorem State.writeDone_receive (i : Fin 32) : WriteDone s (s.areaAddr (receiveOffset n i)) w
    (s.receive n i w) (s.receiveAction n w) := by
  have stored := (s.frame_entryWritten n i w).mem_eq
  rw [State.receiveAction_eq]
  split
  · rename_i passive
    rw [State.receive_passive i w passive]
    exact s.writeDone_writeArea _ w
  · split
    · rename_i altered
      obtain ⟨password, mask⟩ := Bool.and_eq_true_iff.mp altered
      rw [State.entryInMemory_masked (of_decide_eq_true password) mask] at stored
      exact .altered stored
    · rename_i plain
      rw [State.entryInMemory_written fun password => by simpa [password] using plain] at stored
      exact .watched stored

end

theorem State.writeDone_writeStaging (s : State) (i : Fin 16) (w : Word) :
    WriteDone s (s.areaAddr (stagingOffset i)) w (s.writeStaging i w) .watch := by
  have captured : SameBut [.staging, .latch, .queues] (s.writeArea (stagingOffset i) w)
      (s.writeStaging i w) :=
    .ite ((State.frame_refuse _ _ _).mono (by decide)) ((State.frame_setStaging _ _).mono (by decide))
  exact .watched captured.mem_eq

theorem State.writeDone_processorWrite (s : State) (o : Offset) (w : Word) :
    WriteDone s (s.areaAddr o) w (s.processorWrite o w).state (s.processorWrite o w).action := by
  simp only [State.processorWrite]
  split
  · rename_i n cell
    obtain rfl : o = commandOffset n := offset_of_place (place_of_region cell)
    exact s.writeDone_processorCommand n w
  · exact .taken (s.frame_writeAttention w).mem_eq
  · exact .taken (s.frame_setAttention _).mem_eq
  · exact .taken (s.frame_setAttention _).mem_eq
  · exact .taken (s.frame_writePlanStart w).mem_eq
  · exact .taken (s.frame_writePlanWord w).mem_eq
  · exact .taken (s.frame_writeTail w).mem_eq
  · exact .taken (s.frame_startCensus w).mem_eq
  · exact .taken (s.frame_writeCommit w).mem_eq
  · exact .taken (s.frame_writeClockMinute w).mem_eq
  · exact .taken (s.frame_writeClockDay w).mem_eq
  · exact .taken (s.frame_writeTariff _ _ w).mem_eq
  · exact .taken (s.frame_writeBandStart _ w).mem_eq
  · exact .taken (s.frame_writeWeekend w).mem_eq
  · rename_i c _
    simp only [takenWrite, written]
    exact .taken (s.frame_writePermit c w).mem_eq
  · exact .taken (s.frame_writeSetting _ w).mem_eq
  · rename_i i cell
    obtain rfl : o = stagingOffset i := offset_of_place (place_of_region cell)
    exact s.writeDone_writeStaging i w
  · rename_i n cell
    obtain rfl : o = putOffset n := offset_of_place (place_of_region cell)
    exact .watched (State.frame_updLine (s.writeArea (putOffset n) w) n _).mem_eq
  case h_19 | h_20 | h_21 | h_22 | h_23 | h_24 | h_25 => exact s.writeDone_writeArea o w
  all_goals exact .refused (s.frame_writeRefused .processor o).mem_eq

theorem State.writeDone_scannerWrite (s : State) (o : Offset) (w : Word) :
    WriteDone s (s.areaAddr o) w (s.scannerWrite o w).state (s.scannerWrite o w).action := by
  simp only [State.scannerWrite]
  split
  · rename_i n cell
    obtain rfl : o = commandOffset n := offset_of_place (place_of_region cell)
    exact s.writeDone_acknowledge n w
  · rename_i n cell
    obtain rfl : o = statusOffset n := offset_of_place (place_of_region cell)
    exact s.writeDone_statusWritten n w
  · rename_i cell
    obtain rfl : o = sweepOffset := offset_of_place (place_of_region cell)
    exact .watched (s.mem_sweepMarked w)
  · rename_i n i cell
    obtain rfl : o = receiveOffset n i := offset_of_place (place_of_region cell)
    exact s.writeDone_receive n w i
  · rename_i n cell
    obtain rfl : o = takeOffset n := offset_of_place (place_of_region cell)
    exact .watched (State.frame_updLine (s.writeArea (takeOffset n) w) n _).mem_eq
  case h_6 | h_7 | h_8 | h_9 | h_10 => exact s.writeDone_writeArea o w
  all_goals exact .refused (s.frame_writeRefused .scanner o).mem_eq

/-! ## Cycles inside the line area and outside -/

theorem State.readDone_takeInside {s : State} {c : Cycle} (o : Offset) (read : c.write = false) :
    ReadDone s (s.areaAddr o) (s.takeInside c o) := by
  obtain ⟨master, addr, write, data⟩ := c
  cases read
  cases master with
  | processor => exact s.readDone_processorRead o
  | scanner => exact s.readDone_scannerRead o

theorem State.writeDone_takeInside {s : State} {c : Cycle} (o : Offset) (write : c.write = true) :
    WriteDone s (s.areaAddr o) c.data (s.takeInside c o).state (s.takeInside c o).action := by
  obtain ⟨master, addr, _, data⟩ := c
  cases write
  cases master with
  | processor => exact s.writeDone_processorWrite o data
  | scanner => exact s.writeDone_scannerWrite o data

section
variable {s t : State} {a : Addr} {w : Word} {x : Action}

/-- A store is read back, and no other word changes. -/
theorem words_of_stored {v : Word} (canonical : MemoryCanonical s)
    (stored : t.mem = (s.writeMem a v).mem) : t.readMem a = v ∧ OtherWords a s t :=
  ⟨(congrArg (Memory.read · a.toNat) stored).trans (s.readMem_writeMem_same a v canonical),
    fun b hb => (congrArg (Memory.read · b.toNat) stored).trans (s.readMem_writeMem_other v hb)⟩

theorem words_of_kept (kept : t.mem = s.mem) (b : Addr) : t.readMem b = s.readMem b :=
  congrArg (Memory.read · b.toNat) kept

/-- The word at the cycle's own address by the action, and the other words as before. -/
theorem WriteDone.words (h : WriteDone s a w t x) (canonical : MemoryCanonical s) :
    OtherWords a s t
    ∧ (x = .pass ∨ x = .watch → t.readMem a = w)
    ∧ (x = .alter → t.readMem a = w.extractLsb' 8 8 ++ s.fill)
    ∧ (x = .take ∨ x = .refuse → t.readMem a = s.readMem a)
    ∧ x ≠ .overlay := by
  cases h with
  | passed stored _ | watched stored | altered stored =>
    obtain ⟨word, others⟩ := words_of_stored canonical stored
    simp [word, others]
  | taken kept | refused kept =>
    have words := words_of_kept kept
    exact ⟨fun b _ => words b, by simp, by simp, fun _ => words a, by simp⟩

theorem WriteDone.frame (h : WriteDone s a w t x) (passed : x = .pass) : SameBut [.mem] s t := by
  cases h with
  | passed _ frame => exact frame
  | watched | altered | taken | refused => cases passed

theorem ReadDone.frame {r : Taken} (h : ReadDone s a r) (passed : r.action = .pass) :
    SameBut [.mem] s r.state := by
  rcases h with ⟨-, -, same⟩ | ⟨overlaid, -⟩
  · exact same ▸ SameBut.refl _ _
  · cases passed.symm.trans overlaid

end

/-- A passed cycle changes nothing of the part but the word it stores (R157). -/
theorem State.frame_passed {s : State} {c : Cycle} {o : Offset}
    (passed : (s.takeInside c o).action = .pass) : SameBut [.mem] s (s.takeInside c o).state := by
  cases direction : c.write with
  | false => exact (State.readDone_takeInside o direction).frame passed
  | true => exact (State.writeDone_takeInside o direction).frame passed

theorem State.classify_outside {s : State} {c : Cycle} (ho : s.areaOffset c.addr = none) :
    s.classify c = s.takeOutside c := by
  simp only [State.classify, ho]

theorem State.takeOutside_read {s : State} {c : Cycle} (read : c.write = false) :
    s.takeOutside c = { action := .pass, data := s.readMem c.addr, state := s } := by
  simp only [State.takeOutside, read]
  rfl

theorem State.takeOutside_write {s : State} {c : Cycle} (write : c.write = true) :
    s.takeOutside c = written .pass (s.writeMem c.addr c.data) := by
  simp only [State.takeOutside, write]
  rfl

theorem State.action_takeOutside (s : State) (c : Cycle) : (s.takeOutside c).action = .pass := by
  cases direction : c.write with
  | false => rw [State.takeOutside_read direction]
  | true => rw [State.takeOutside_write direction, written]

/-- Settles O8: the table's action by the cell's region, a read and a write by what their action does, and
the cycles outside the line area. -/
theorem theActionDecidesWhatReachesMemory : Obligations.TheActionDecidesWhatReachesMemory := by
  refine ⟨fun s c o canonical ho => ?_, fun s c canonical ho => ?_⟩
  · rw [State.classify_inside c ho, ← State.areaAddr_of_areaOffset ho]
    refine ⟨s.action_takeInside c o, State.frame_passed, fun read => ?_,
      fun write => (State.writeDone_takeInside o write).words canonical⟩
    rcases State.readDone_takeInside o read with ⟨action, data, same⟩ | ⟨action, kept⟩
    · exact ⟨fun _ => by rw [same], .inl ⟨action, data, same⟩⟩
    · exact ⟨words_of_kept kept, .inr action⟩
  · rw [State.classify_outside ho]
    refine ⟨s.action_takeOutside c, fun read => ?_, fun write => ?_⟩
    · rw [State.takeOutside_read read]
      exact ⟨rfl, rfl⟩
    · rw [State.takeOutside_write write]
      obtain ⟨word, others⟩ := words_of_stored (t := s.writeMem c.addr c.data) canonical rfl
      exact ⟨word, others, s.frame_writeMem c.addr c.data⟩

end Sys2Proof.Machine
end

section
/-!
PROOFS. Every step keeps the memory array in its canonical form (log 3): what reaches memory are writes of
single words at 18-bit addresses.
-/

namespace Sys2Proof.Machine

-- One proof after another: a default `by` argument waits for every earlier proof of the text.
set_option Elab.async false

/-- The second state's memory array is canonical where the first's is (log 3). -/
def CanonicalKept (s t : State) : Prop := MemoryCanonical s → MemoryCanonical t

theorem CanonicalKept.refl (s : State) : CanonicalKept s s := id

theorem CanonicalKept.trans {s t u : State} (h : CanonicalKept s t) (h' : CanonicalKept t u) :
    CanonicalKept s u := h' ∘ h

theorem CanonicalKept.ite {s t u : State} {c : Prop} [Decidable c] (h : CanonicalKept s t)
    (h' : CanonicalKept s u) : CanonicalKept s (if c then t else u) := by
  split <;> assumption

theorem CanonicalKept.of_mem {s t : State} (h : t.mem = s.mem) : CanonicalKept s t := fun canonical =>
  (congrArg Memory.wf h).trans canonical

/-- What leaves the memory array alone. -/
theorem CanonicalKept.of_frame {bs : List Block} {s t : State} (frame : SameBut bs s t)
    (mem : .mem ∉ bs := by decide) : CanonicalKept s t := .of_mem (frame.mem_eq mem)

/-! ## Words written -/

theorem CanonicalKept.writeMem (s : State) (a : Addr) (v : Word) : CanonicalKept s (s.writeMem a v) :=
  s.wf_writeMem a v

theorem CanonicalKept.writeArea (s : State) (o : Offset) (v : Word) :
    CanonicalKept s (s.writeArea o v) := s.wf_writeArea o v

/-- A word written, and then what leaves the memory array alone. -/
theorem CanonicalKept.of_stored {s t : State} {a : Addr} {v : Word}
    (stored : t.mem = (s.writeMem a v).mem) : CanonicalKept s t :=
  (CanonicalKept.writeMem s a v).trans (.of_mem stored)

theorem CanonicalKept.writePut (s : State) (n : LineNo) (w : Word) : CanonicalKept s (s.writePut n w) :=
  .writeArea s (putOffset n) w

theorem CanonicalKept.writeTake (s : State) (n : LineNo) (w : Word) : CanonicalKept s (s.writeTake n w) :=
  .writeArea s (takeOffset n) w

/-- A write of a cycle stores one word, whatever its action, or none (R157). -/
theorem CanonicalKept.of_writeDone {s t : State} {a : Addr} {w : Word} {x : Action}
    (h : WriteDone s a w t x) : CanonicalKept s t := by
  cases h with
  | passed stored _ | watched stored | altered stored => exact .of_stored stored
  | taken kept | refused kept => exact .of_mem kept

/-- A read of a cycle stores nothing (R157). -/
theorem CanonicalKept.of_readDone {s : State} {a : Addr} {r : Taken} (h : ReadDone s a r) :
    CanonicalKept s r.state := by
  rcases h with ⟨-, -, same⟩ | ⟨-, kept⟩
  · exact .of_mem (congrArg State.mem same)
  · exact .of_mem kept

/-- The words of a record, however many of them reach memory (R133, R140). -/
theorem CanonicalKept.writeRecord (s : State) (p : Nat) (words : List Word) (k : Nat) :
    CanonicalKept s (s.writeRecord p words k) := by
  simp only [State.writeRecord]
  generalize words.zipIdx.take k = placed
  induction placed generalizing s with
  | nil => exact .refl s
  | cons x placed ih => exact (CanonicalKept.writeArea s _ x.1).trans (ih _)

/-! ## The taking of a cycle (R157, R158) -/

theorem CanonicalKept.takeInside (s : State) (c : Cycle) (o : Offset) :
    CanonicalKept s (s.takeInside c o).state := by
  cases direction : c.write with
  | false => exact .of_readDone (State.readDone_takeInside o direction)
  | true => exact .of_writeDone (State.writeDone_takeInside o direction)

theorem CanonicalKept.takeOutside (s : State) (c : Cycle) :
    CanonicalKept s (s.takeOutside c).state := by
  cases direction : c.write with
  | false =>
    rw [State.takeOutside_read direction]
    exact .refl s
  | true =>
    rw [State.takeOutside_write direction]
    exact .writeMem s c.addr c.data

theorem CanonicalKept.classify (s : State) (c : Cycle) : CanonicalKept s (s.classify c).state := by
  cases place : s.areaOffset c.addr with
  | some o =>
    rw [State.classify_inside c place]
    exact .takeInside s c o
  | none =>
    rw [State.classify_outside place]
    exact .takeOutside s c

theorem CanonicalKept.takeCycle (s : State) (c : Cycle) : CanonicalKept s (s.takeCycle c) :=
  (CanonicalKept.classify s c).trans (.of_frame (State.frame_setOwner _ _))

/-! ## The memory-side arbiter (R159, R160) -/

theorem CanonicalKept.arrive (s : State) (c : Cycle) : CanonicalKept s (s.arrive c) := by
  have arrived : CanonicalKept s ((s.setBrdy c.master false).closeWindowAt c) :=
    (CanonicalKept.of_frame (s.frame_setBrdy c.master false)).trans
      (.of_frame (State.frame_closeWindowAt _ c))
  exact .ite (.refl s) (arrived.trans (.ite (.takeCycle _ c) (.of_frame (State.frame_enqueueCycle _ c))))

theorem CanonicalKept.arrivals (s : State) (cs : List Cycle) :
    CanonicalKept s (cs.foldl State.arrive s) := by
  induction cs generalizing s with
  | nil => exact .refl s
  | cons c cs ih => exact (CanonicalKept.arrive s c).trans (ih _)

theorem CanonicalKept.releaseMemorySide (s : State) : CanonicalKept s s.releaseMemorySide := by
  refine (CanonicalKept.of_frame (s.frame_setOwner .free)).trans ?_
  simp only [State.releaseMemorySide]
  split
  · exact .trans (.of_frame (State.frame_setWaiting _ _)) (.takeCycle _ _)
  · exact .of_frame (State.frame_startPosting _)

theorem CanonicalKept.endCycle (s : State) : CanonicalKept s s.endCycle := by
  simp only [State.endCycle]
  split
  · exact .trans (.ite (.refl s) (.of_frame (s.frame_answerCycle _ _))) (.releaseMemorySide _)
  · exact .refl s
  · exact .refl s

/-! ## The posting of a record (R133) -/

theorem CanonicalKept.recordPosted (s : State) : CanonicalKept s s.recordPosted := by
  cases queued : s.journal.queue with
  | nil => exact .of_mem (congrArg State.mem (State.recordPosted_nil queued))
  | cons r rest =>
    rw [State.recordPosted_cons queued]
    have written : CanonicalKept s (s.recordWritten r rest) :=
      .writeRecord s s.journal.head r.words.toList 16
    exact (written.trans (.of_frame (State.frame_give _ _))).trans
      (.of_frame (State.frame_evaluateGrants _))

theorem CanonicalKept.postingCompleted (s : State) : CanonicalKept s s.postingCompleted :=
  .ite (((CanonicalKept.recordPosted s).trans (.of_frame (State.frame_windowAfterPosting _))).trans
    (.releaseMemorySide _)) (.refl s)

/-! ## The resets (R140, R155, R164) -/

/-- A posting that a power-on reset cuts short leaves the first words of its record (R140, log 4). -/
theorem CanonicalKept.tornMemory (s : State) : CanonicalKept s s.tornMemory := by
  simp only [State.tornMemory]
  split
  · exact .writeRecord s _ _ _
  · exact .refl s

theorem CanonicalKept.poweredOn (s : State) : CanonicalKept s s.poweredOn := .tornMemory s

theorem CanonicalKept.released (s : State) (straps : BitVec 3) (p q : Bool) :
    CanonicalKept s (s.released straps p q) :=
  (CanonicalKept.of_frame (s.frame_outOfReset straps)).trans (.arrivals _ _)

/-! ## Every step -/

theorem CanonicalKept.event {f : State → State} {s t : State} (kept : ∀ u, CanonicalKept u (f u))
    (ht : event f s = .next t) : CanonicalKept s t := fun canonical =>
  event_keeps ht canonical (kept s canonical) fun _ => id

/-- An event whose effect leaves the memory array alone. -/
theorem CanonicalKept.frameEvent {f : State → State} {bs : List Block} {s t : State}
    (frame : ∀ u, SameBut bs u (f u)) (ht : Machine.event f s = .next t)
    (mem : .mem ∉ bs := by decide) : CanonicalKept s t := .event (fun u => .of_frame (frame u) mem) ht

/-- A read row leaves the memory array alone: its word goes on BD. -/
theorem CanonicalKept.readEvent {f : State → Word × State} {bs : List Block} {s t : State}
    (frame : ∀ u, SameBut bs u (f u).2) (ht : readEvent f s = .next t) (mem : .mem ∉ bs := by decide) :
    CanonicalKept s t :=
  .event (fun u => (CanonicalKept.of_frame (frame u) mem).trans (.of_frame (State.frame_setBd _ _))) ht

/-- The rows that store words are the writes of the cells kept in memory, the postings and what the
arbiter runs; every other row leaves the memory array alone. -/
theorem CanonicalKept.exec {i : Instr} {s t : State} (ht : exec i s = .next t) : CanonicalKept s t := by
  cases i with
  | statusWrite n w => exact .event (fun u => .of_writeDone (u.writeDone_statusWritten n w)) ht
  | receiveEntry n j w => exact .event (fun u => .of_writeDone (u.writeDone_receive n w j)) ht
  | commandWordRead n => exact .readEvent (fun u => u.frame_readCommand n) ht
  | acknowledge n w => exact .event (fun u => .of_writeDone (u.writeDone_acknowledge n w)) ht
  | processorHangUp n =>
    exact .event (fun u => .of_writeDone (u.writeDone_processorCommand n hangUpCode)) ht
  | transmitPutWrite n w => exact .event (fun u => .writePut u n w) ht
  | transmitTakeWrite n w => exact .event (fun u => .writeTake u n w) ht
  | carrierDoubtExpiry n => exact .frameEvent (fun u => u.frame_doubtExpired n) ht
  | politeTimeExpiry n | clearingTimeExpiry n => exact .frameEvent (fun u => u.frame_updLine n _) ht
  | modeLoad n w | hangRequest n w => exact .frameEvent (fun u => u.frame_writeSetting n w) ht
  | sessionStatusRead n => exact .readEvent (fun u => u.frame_readStatus0 n) ht
  | ringGoneExpiry n => exact .frameEvent (fun u => u.frame_ringGoneExpired n) ht
  | answerTimerExpiry n => exact .frameEvent (fun u => u.frame_answerExpired n) ht
  | signOnTimeExpiry k => exact .frameEvent (fun u => u.frame_signOnExpired k) ht
  | requestServiceStart => exact .frameEvent (fun u => u.frame_startService) ht
  | lookupCompletion => exact .frameEvent (fun u => u.frame_lookupCompleted) ht
  | lockEnd j => exact .frameEvent (fun u => u.frame_updSlot j _) ht
  | censusStart w => exact .frameEvent (fun u => u.frame_startCensus w) ht
  | censusRead => exact .readEvent (fun u => u.frame_readCensus) ht
  | stagingWrite j w => exact .event (fun u => .of_writeDone (u.writeDone_writeStaging j w)) ht
  | commitWrite w => exact .frameEvent (fun u => u.frame_writeCommit w) ht
  | commitCompletion => exact .frameEvent (fun u => u.frame_commitCompleted) ht
  | shortTick => exact .frameEvent (fun u => u.frame_shortTicked) ht
  | secondTick => exact .frameEvent (fun u => u.frame_secondTicked) ht
  | graceExpiry n => exact .frameEvent (fun u => u.frame_graceExpired n) ht
  | minuteTick => exact .frameEvent (fun u => u.frame_minuteTicked) ht
  | idleLimit n => exact .frameEvent (fun u => u.frame_idleExpired n) ht
  | clockMinuteWrite w => exact .frameEvent (fun u => u.frame_writeClockMinute w) ht
  | clockDayWrite w => exact .frameEvent (fun u => u.frame_writeClockDay w) ht
  | bandStartWrite b w => exact .frameEvent (fun u => u.frame_writeBandStart b w) ht
  | weekendWrite w => exact .frameEvent (fun u => u.frame_writeWeekend w) ht
  | tariffWrite b v w => exact .frameEvent (fun u => u.frame_writeTariff b v w) ht
  | permitWrite c w => exact .frameEvent (fun u => u.frame_writePermit c w) ht
  | sweepMarker w => exact .event (fun u => .of_stored (u.mem_sweepMarked w)) ht
  | postingStart => exact .frameEvent (fun u => u.frame_startPosting) ht
  | postingCompletion => exact .event CanonicalKept.postingCompleted ht
  | windowTimeOut => exact .frameEvent (fun u => u.frame_windowTimedOut) ht
  | tailWrite w => exact .frameEvent (fun u => u.frame_writeTail w) ht
  | poll => exact .readEvent (fun u => u.frame_readAttention) ht
  | nonSpecificDone | specificDone | rotateOnNonSpecificDone | rotateOnSpecificDone | setLowest
  | maskWrite | modeWrite => exact .frameEvent (fun u => u.frame_setAttention _) ht
  | masterCycleArrival c =>
    cases porn : s.pins.porn with
    | true =>
      have running : Machine.exec (.masterCycleArrival c) s = Machine.event (fun s => s.arrive c) s :=
        if_pos porn
      exact .event (fun u => .arrive u c) (running.symm.trans ht)
    | false =>
      cases (exec_masterCycleArrival_held c porn).symm.trans ht
      exact .of_frame (s.frame_present c)
  | masterCycleEnd => exact .event CanonicalKept.endCycle ht
  | writeRefused m o => exact .frameEvent (fun u => u.frame_writeRefused m o) ht
  | latchRead => exact .readEvent (fun u => u.frame_readLatch) ht
  | planStart w => exact .frameEvent (fun u => u.frame_writePlanStart w) ht
  | planWord w => exact .frameEvent (fun u => u.frame_writePlanWord w) ht
  | powerOnReset =>
    cases ht
    exact .poweredOn s
  | powerOnResetRelease straps p q =>
    cases ht
    have released := CanonicalKept.released s straps p q
    exact .ite (.refl s) (released.trans (.of_frame (State.frame_refreshAttn _)))
  | busReset => exact .frameEvent (fun u => u.frame_busResetTaken) ht

theorem CanonicalKept.step {s t : State} (ht : step s = .next t) : CanonicalKept s t := by
  rcases step_cases ht with ⟨i, rest, executed⟩ | rfl
  · have taken : CanonicalKept s { s with pending := rest } := .of_mem rfl
    exact taken.trans (.exec executed)
  · exact .of_frame s.frame_microsecond

/-- Settles O55: a step stores words one at a time, each at an 18-bit address, and such a write keeps the
canonical form. -/
theorem everyStepKeepsMemoryCanonical : Obligations.EveryStepKeepsMemoryCanonical :=
  fun _ _ canonical ht => CanonicalKept.step ht canonical

end Sys2Proof.Machine
end

section
/-!
PROOFS. A step and the command queue, and the idle step (R131, log 11).
-/

namespace Sys2Proof.Machine

theorem step_queued {s : State} {c : Instr} {rest : List Instr} (h : s.pending = c :: rest) :
    step s = exec c { s with pending := rest } := by
  simp only [step, h]

theorem step_idle {s : State} (h : s.pending = []) : step s = .next s.microsecond := by
  simp only [step, h]

/-- A microsecond that counts on an OPEN window: PORN is high and no record is being posted (log 11). -/
theorem State.microsecond_counted {s : State} {w : Window} (opened : s.journal.window = some w)
    (running : Running s) (idle : s.bus.owner ≠ .posting) :
    s.microsecond = s.setWindow (some { w with left := w.left - 1 }) := by
  simp only [State.microsecond, opened]
  exact if_pos ⟨running, idle⟩

theorem State.microsecond_closed {s : State} (closed : s.journal.window = none) : s.microsecond = s := by
  simp only [State.microsecond, closed]

/-- While PORN is low or a record is being posted no microsecond is counted (log 11). -/
theorem State.microsecond_held {s : State} (held : ¬ Running s ∨ s.bus.owner = .posting) :
    s.microsecond = s := by
  simp only [State.microsecond]
  split
  · exact if_neg fun ⟨running, idle⟩ => held.elim (· running) idle
  · rfl

/-- Real time passing moves no pin. -/
theorem State.pins_microsecond (s : State) : s.microsecond.pins = s.pins := by
  simp only [State.microsecond]
  split
  · split <;> rfl
  · rfl

/-- Settles O1: the front command is executed on the queue's rest, and an empty queue lets one microsecond
pass, by the window and by what holds its count. -/
theorem stepRunsTheFrontCommand : Obligations.StepRunsTheFrontCommand := by
  refine ⟨fun c rest s => step_queued, fun s empty => ?_⟩
  refine ⟨s.microsecond, step_idle empty, s.frame_microsecond, congrArg Pins.attn s.pins_microsecond,
    fun w opened running idle => ?_, fun held => ?_, fun closed => ?_⟩
  · rw [State.microsecond_counted opened running idle]
    rfl
  · rw [State.microsecond_held held]
  · rw [State.microsecond_closed closed, closed]

end Sys2Proof.Machine
end

section
/-!
PROOFS. The causes of a session close and what it does (R118).
-/

namespace Sys2Proof.Machine

-- One proof after another: a default `by` argument waits for every earlier proof of the text.
set_option Elab.async false

/-! ## The close as an event leaves it (R118, R146) -/

theorem SessionClosed.refreshAttn {n : LineNo} {x : Session} {reason : CloseReason}
    {hang : Option Manner} {s t : State} (h : SessionClosed n x reason hang s t) :
    SessionClosed n x reason hang s t.refreshAttn := by
  obtain ⟨queue, sequence, line, lines, slot, slots, given, session, sessions, frame⟩ := h
  exact ⟨queue, sequence, line, lines, slot, slots, given, session, sessions,
    frame.step (State.frame_refreshAttn _)⟩

theorem State.toList_words_buildRecord (s : State) (n : LineNo) (x : Session) (reason : CloseReason) :
    (s.buildRecord n x reason).words.toList =
      s.recordBody n x reason ++ [checkWords (s.recordBody n x reason)] := rfl

/-- Records of one line with the same fifteen words are the same (R125). -/
theorem State.buildRecord_congr {s t : State} {n : LineNo} {x : Session} {reason : CloseReason}
    (body : t.recordBody n x reason = s.recordBody n x reason) :
    t.buildRecord n x reason = s.buildRecord n x reason := by
  have words : (t.buildRecord n x reason).words = (s.buildRecord n x reason).words := by
    rw [← Vector.toList_inj, State.toList_words_buildRecord, State.toList_words_buildRecord, body]
  exact congrArg (JournalRecord.mk n) words

/-- Of the line's record, only the speed class goes into the journal record (R175). -/
theorem State.buildRecord_setLine (s : State) {n : LineNo} {r : LineRecord}
    (speed : r.speed = (s.line n).speed) (x : Session) (reason : CloseReason) :
    (s.setLine n r).buildRecord n x reason = s.buildRecord n x reason :=
  State.buildRecord_congr (by
    simp only [State.recordBody, State.line_setLine_same, State.journal_setLine, State.meter_setLine,
      State.numberOf, State.classOf, State.slot_setLine, speed])

/-- A doubt that ended on the line is not seen in the close: a cleared line has none (R15). -/
theorem SessionClosed.of_doubtEnded {n : LineNo} {x : Session} {reason : CloseReason}
    {hang : Option Manner} {s t : State}
    (h : SessionClosed n x reason hang (s.setLine n { s.line n with doubt := none }) t) :
    SessionClosed n x reason hang s t := by
  obtain ⟨queue, sequence, line, lines, slot, slots, given, session, sessions, frame⟩ := h
  have record := s.buildRecord_setLine (n := n) (r := { s.line n with doubt := none }) rfl x reason
  simp only [State.line_setLine_same] at line
  exact ⟨queue.trans (record ▸ rfl), sequence, line,
    fun m hm => (lines m hm).trans (State.line_setLine_other _ _ hm), slot, slots, given, session,
    sessions, ((s.frame_setLine n _).mono (by decide)).trans frame⟩

/-- An event that closes line n's session. -/
theorem Completes.sessionClosed {i : Instr} {s u : State} {f : State → State} {n : LineNo}
    {x : Session} {reason : CloseReason} {hang : Option Manner} (hexec : exec i s = event f s)
    (running : Running s) (closes : f s = u.closeSession n reason hang) (hx : u.session n = some x) :
    Completes i s (SessionClosed n x reason hang u) :=
  .of_event f hexec running (closes ▸ (State.sessionClosed hx reason hang).refreshAttn)

/-! ## The causes of a close -/

section
variable {s : State} {n : LineNo}

theorem State.doubtExpired_signedOn (on : (s.line n).state = .signedOn)
    (due : (s.line n).doubt = some 0) : s.doubtExpired n =
      (s.setLine n { s.line n with doubt := none }).closeSession n .carrierLost (some .rude) := by
  simp [State.doubtExpired, due, State.updLine_eq, on, LineState.inDialogue]

theorem State.processorCommand_signedOn (on : (s.line n).state = .signedOn) :
    s.processorCommand n hangUpCode =
      (s.writeArea (commandOffset n) 0x0002#16).closeSession n .logoff none := by
  simp [State.processorCommand, State.processorHangUp, on, hangUpCode]

theorem State.hangRequested_signedOn (on : (s.line n).state = .signedOn) (m : Manner) :
    s.hangRequested n m = s.closeSession n .forced (some m) := by
  simp only [State.hangRequested, on]

theorem State.modeLoaded_signedOn {m : LineMode} (on : (s.line n).state = .signedOn)
    (other : (s.line n).mode ≠ m) : s.modeLoaded n m =
      (s.updLine n fun r => { r with mode := m }).closeSession n .lineOff (some .polite) := by
  simp only [State.modeLoaded, if_neg other, on]

theorem State.graceExpired_due {x : Session} {c : Grace} (hx : s.session n = some x)
    (grace : x.grace = some c) (due : c.left = 0) :
    s.graceExpired n = s.closeSession n c.closeReason (some .polite) := by
  simp only [State.graceExpired, hx, grace, if_pos due]

end

/-- The HANG request of a setting word by its code (R18). -/
theorem settingHang_manner {w : Word} {m : Manner}
    (code : w.extractLsb' 4 2 = match m with | .polite => 1#2 | .rude => 2#2) :
    settingHang w = .request m := by
  cases m with
  | polite => exact settingHang_polite code
  | rude => exact settingHang_rude code

/-- Settles O21: each cause makes the close with its own reason and HANG_UP. -/
theorem theCausesOfASessionClose : Obligations.TheCausesOfASessionClose := by
  intro n x a s running on hx ha
  refine ⟨fun doubt => ?_, ?_, fun w m unloaded code => ?_, fun w m loaded code mode other => ?_,
    fun c grace due => ?_, fun member due => ?_⟩
  · exact (Completes.sessionClosed (f := fun s => s.doubtExpired n) rfl running
      (State.doubtExpired_signedOn on doubt) hx).imp fun _ => SessionClosed.of_doubtEnded
  · exact .sessionClosed (f := fun s => s.processorCommand n hangUpCode) rfl running
      (State.processorCommand_signedOn on) hx
  · exact .sessionClosed (f := fun s => s.writeSetting n w) rfl running
      ((State.writeSetting_hang unloaded (settingHang_manner code)).trans
        (State.hangRequested_signedOn on m)) hx
  · exact .sessionClosed (f := fun s => s.writeSetting n w) rfl running
      ((State.writeSetting_mode loaded mode (settingHang_none code)).trans
        (State.modeLoaded_signedOn on other)) hx
  · exact .sessionClosed (f := fun s => s.graceExpired n) rfl running
      (State.graceExpired_due hx grace due) hx
  · exact .sessionClosed (f := fun s => s.idleExpired n) rfl running
      (State.idleExpired_due hx ha member due) hx

end Sys2Proof.Machine
end

section
/-!
PROOFS. The overlay reads that change nothing, in the layouts of R170 to R172.
-/

namespace Sys2Proof.Machine

-- One proof after another: a default `by` argument waits for every earlier proof of the text.
set_option Elab.async false

/-! ## Overlay reads (R157) -/

/-- A processor read at an address is overlaid with this word and leaves the part as it was. -/
def Shows (s : State) (addr : Addr) (v : Word) : Prop :=
  let c := s.classify { master := .processor, addr := addr, write := false, data := 0#16 }
  c.action = .overlay ∧ c.data = v ∧ c.state = s

theorem Shows.of_overlay {s : State} {addr : Addr} {o : Offset} {v w : Word}
    (ho : s.areaOffset addr = some o) (overlaid : s.processorRead o = overlayRead s w) (layout : w = v) :
    Shows s addr v := by
  have taken := (State.classify_read ho .processor 0#16).trans overlaid
  rw [Shows, taken]
  exact ⟨rfl, layout, rfl⟩

/-! ## Sets of classes as bits (R151, R152) -/

/-- The number whose bits are the numbers that meet a test. -/
def bitsWhere {m : Nat} (p : Fin m → Bool) : Nat :=
  (List.finRange m).foldl (fun n k => if p k then n + 2 ^ k.val else n) 0

theorem bitsWhere_succ {m : Nat} (p : Fin (m + 1) → Bool) :
    bitsWhere p = (p (Fin.last m)).toNat * 2 ^ m + bitsWhere fun k : Fin m => p k.castSucc := by
  rw [bitsWhere, bitsWhere, List.finRange_succ_last, List.foldl_append, List.foldl_map]
  cases last : p (Fin.last m) <;> simp [last, Nat.add_comm]

theorem bitsWhere_lt {m : Nat} (p : Fin m → Bool) : bitsWhere p < 2 ^ m := by
  induction m with
  | zero => simp [bitsWhere]
  | succ m ih =>
    have lower := ih fun k => p k.castSucc
    have top := Nat.mul_le_mul_right (2 ^ m) (p (Fin.last m)).toNat_le
    rw [bitsWhere_succ, pow_succ]
    omega

theorem testBit_bitsWhere {m : Nat} (p : Fin m → Bool) (k : Fin m) :
    (bitsWhere p).testBit k.val = p k := by
  induction m with
  | zero => exact k.elim0
  | succ m ih =>
    have lower := bitsWhere_lt fun k : Fin m => p k.castSucc
    rw [bitsWhere_succ, Nat.mul_comm, Nat.testBit_two_pow_mul_add _ lower]
    induction k using Fin.lastCases with
    | last => cases p (Fin.last m) <;> simp
    | cast k => simp [ih]

/-- The same number as a set of bits. -/
theorem getLsbD_bitsWhere {m : Nat} (p : Fin m → Bool) (k : Fin m) :
    (BitVec.ofNat m (bitsWhere p)).getLsbD k.val = p k := by
  rw [BitVec.getLsbD_ofNat, testBit_bitsWhere]
  simp

theorem Attention.waitingBits_eq (a : Attention) :
    a.waitingBits = bitsWhere fun k => !(a.queue k).isEmpty := by
  simp only [Attention.waitingBits, bitsWhere, Bool.not_eq_true', ← Bool.not_eq_true, ite_not]

theorem Attention.servedBits_eq (a : Attention) :
    a.servedBits = bitsWhere fun k => (a.served k).isSome := rfl

/-! ## The attention cells (R171) -/

theorem Attention.maskWord_eq (a : Attention) :
    a.maskWord = BitVec.ofNat 8 a.waitingBits ++ a.mask := by
  have waiting : a.waitingBits < 2 ^ 8 := a.waitingBits_eq ▸ bitsWhere_lt _
  refine Eq.trans ?_ (setWidth_shift_zero _)
  simp only [Attention.maskWord, packWord_cons, packWord_nil, ofNat_setWidth waiting,
    BitVec.ofNat_toNat, BitVec.or_zero]
  simp only [setWidth_append_shift]

theorem Attention.modeWord_eq (a : Attention) :
    a.modeWord = BitVec.ofNat 8 a.servedBits ++ 0#1 ++ BitVec.ofNat 3 a.lowest.val ++ 0#1
      ++ BitVec.ofBool a.specialMask ++ BitVec.ofBool a.autoRotate ++ BitVec.ofBool a.autoDone := by
  have serving : a.servedBits < 2 ^ 8 := a.servedBits_eq ▸ bitsWhere_lt _
  have lowest : a.lowest.val < 2 ^ 3 := a.lowest.isLt
  refine Eq.trans ?_ (setWidth_shift_zero _)
  simp only [Attention.modeWord, packWord_cons, packWord_nil, ofNat_setWidth serving,
    ofNat_setWidth lowest, ofNat_toNat_bool, BitVec.or_zero]
  simp only [setWidth_append_shift, BitVec.setWidth_zero, BitVec.zero_shiftLeft, BitVec.zero_or]

/-! ## The part status and journal cells (R172) -/

theorem planCode_lt (p : PlanState) : planCode p < 2 ^ 2 := by cases p <;> simp [planCode]

theorem masterCode_lt (m : Master) : masterCode m < 2 ^ 1 := by cases m <;> decide

theorem nextPlanWord_lt {p : PlanState} (next : ∀ k, p = .planning k → k ≤ 11) :
    nextPlanWord p < 2 ^ 4 := by
  cases p with
  | planning k => exact Nat.lt_of_le_of_lt (next k rfl) (by decide)
  | unplanned | planned => decide

theorem State.partStatusWord_eq {s : State} (next : ∀ k, s.plan.state = .planning k → k ≤ 11) :
    s.partStatusWord = BitVec.ofBool (s.credit == 0)
      ++ BitVec.ofNat 1 (masterCode s.bus.latch.master)
      ++ BitVec.ofBool s.bus.latch.more ++ BitVec.ofBool s.bus.latch.valid
      ++ BitVec.ofNat 4 s.heldContexts ++ 0#2
      ++ BitVec.ofNat 4 (nextPlanWord s.plan.state) ++ BitVec.ofNat 2 (planCode s.plan.state) := by
  have held : s.heldContexts < 2 ^ 4 := Nat.lt_of_le_of_lt s.heldContexts_le (by decide)
  refine Eq.trans ?_ (setWidth_shift_zero _)
  simp only [State.partStatusWord, packWord_cons, packWord_nil, ofNat_setWidth held,
    ofNat_setWidth (planCode_lt _), ofNat_setWidth (masterCode_lt _),
    ofNat_setWidth (nextPlanWord_lt next), ofNat_toNat_bool, BitVec.or_zero, State.answeringStopped]
  simp only [setWidth_append_shift, BitVec.setWidth_zero, BitVec.zero_shiftLeft, BitVec.zero_or]

theorem Journal.headWord_eq {j : Journal} (inside : j.head < 1024) :
    j.headWord = BitVec.ofBool (j.visible == j.capacity && decide (0 < j.capacity)) ++ 0#5
      ++ BitVec.ofNat 10 j.head := by
  have head : j.head < 2 ^ 10 := inside
  refine Eq.trans ?_ (setWidth_shift_zero _)
  simp only [Journal.headWord, packWord_cons, packWord_nil, ofNat_setWidth head, ofNat_toNat_bool,
    BitVec.or_zero, Journal.full]
  simp only [setWidth_append_shift, BitVec.setWidth_zero, BitVec.zero_shiftLeft, BitVec.zero_or]

/-- A word of one field at bit 0. -/
theorem packWord_single (v : Nat) : packWord [(v, 0)] = BitVec.ofNat 16 v := by
  rw [packWord_cons, packWord_nil, BitVec.or_zero, BitVec.shiftLeft_zero]

/-! ## The receipt cells (R88) -/

/-- A field of a word in its own place is the word under a mask. -/
theorem field_in_place (w : Word) (lo len : Nat) :
    BitVec.ofNat 16 (field w lo len) <<< lo =
      w &&& (BitVec.allOnes len).setWidth 16 <<< lo := by
  rw [field, BitVec.ofNat_toNat]
  ext i hi
  by_cases below : i < lo
  · simp [below]
  · have place : lo + (i - lo) = i := by omega
    simp [below, place, Bool.and_comm, BitVec.getLsbD_eq_getElem hi]

theorem Staging.targetWord_eq (g : Staging) : g.targetWord = g.record.word 0 &&& 0x37FF#16 := by
  have mask : 0x37FF#16 = (BitVec.allOnes 11).setWidth 16 <<< 0
      ||| (BitVec.allOnes 2).setWidth 16 <<< 12 := by decide
  rw [Staging.targetWord, packWord_cons, packWord_cons, packWord_nil, BitVec.or_zero, field_in_place,
    field_in_place, mask, BitVec.and_or_distrib_left]

/-- A gapless run starts at offset 0, so the fill set need not be asked whether it is empty (R85). -/
theorem Staged.gapless_eq (r : Staged) : r.gapless =
    (r.fill[0] && decide (∀ j : Fin 16, j ≤ r.last → r.fill[j] = true)) := by
  rw [Bool.eq_iff_iff, Staged.gapless_iff, Bool.and_eq_true, decide_eq_true_eq]
  exact ⟨fun filled => ⟨filled 0 (Fin.zero_le _), filled⟩, And.right⟩

theorem Staging.stateWord_eq (g : Staging) : g.stateWord = 0#4 ++ BitVec.ofNat 4 g.outcome.code
    ++ 0#3 ++ BitVec.ofBool (g.record.fill[0] && decide (∀ j : Fin 16, j ≤ g.record.last →
        g.record.fill[j] = true)) ++ BitVec.ofNat 4 g.record.last.val := by
  have outcome : g.outcome.code < 2 ^ 4 := g.outcome.code_lt.trans (by decide)
  have last : g.record.last.val < 2 ^ 4 := g.record.last.isLt
  refine Eq.trans ?_ (setWidth_shift_zero _)
  simp only [Staging.stateWord, packWord_cons, packWord_nil, ofNat_setWidth outcome,
    ofNat_setWidth last, ofNat_toNat_bool, BitVec.or_zero, Staged.gapless_eq]
  simp only [setWidth_append_shift, BitVec.setWidth_zero, BitVec.zero_shiftLeft, BitVec.zero_or,
    BitVec.or_zero]

theorem Staged.anyFilled_iff (r : Staged) :
    r.anyFilled = true ↔ ∃ j : Fin 16, r.fill[j] = true := by
  simp only [Staged.anyFilled, List.any_eq_true, Vector.mem_toList_iff, Vector.mem_iff_getElem, id]
  constructor
  · rintro ⟨b, ⟨i, hi, rfl⟩, filled⟩
    exact ⟨⟨i, hi⟩, filled⟩
  · rintro ⟨j, filled⟩
    exact ⟨true, ⟨j, j.isLt, filled⟩, rfl⟩

/-- The offsets from 0 to the end offset. -/
theorem offsets_to (last : Fin 16) :
    (List.finRange 16).filter (· ≤ last) = (List.finRange 16).take (last.val + 1) := by
  revert last
  decide

theorem checkWords_nil : checkWords [] = 0#16 := by decide

theorem Staging.checkCell_eq (g : Staging) : g.checkCell =
    if ∃ j : Fin 16, g.record.fill[j] = true then
      checkWords (((List.finRange 16).take (g.record.last.val + 1)).map fun j =>
        if g.record.fill[j] then g.record.words[j] else 0#16)
    else 0#16 := by
  rw [Staging.checkCell, offsets_to, checkWords_nil]
  simp only [Staged.anyFilled_iff]
  rfl

/-! ## The meter's cells (R172) -/

theorem Meter.minuteWord_eq {m : Meter} (minute : m.minute < 2048) (weekday : m.weekday < 8) :
    m.minuteWord = 0#1 ++ BitVec.ofNat 3 m.weekday ++ 0#1 ++ BitVec.ofNat 11 m.minute := by
  have minutes : m.minute < 2 ^ 11 := minute
  have days : m.weekday < 2 ^ 3 := weekday
  refine Eq.trans ?_ (setWidth_shift_zero _)
  simp only [Meter.minuteWord, packWord_cons, packWord_nil, ofNat_setWidth minutes,
    ofNat_setWidth days, BitVec.or_zero]
  simp only [setWidth_append_shift, BitVec.setWidth_zero, BitVec.zero_shiftLeft, BitVec.zero_or,
    BitVec.or_zero]

theorem Permit.word_eq (p : Permit) : p.word = 0#8 ++ p.hold ++ p.signOn := by
  refine Eq.trans ?_ (setWidth_shift_zero _)
  simp only [Permit.word, packWord_cons, packWord_nil, BitVec.ofNat_toNat, BitVec.or_zero]
  simp only [setWidth_append_shift, BitVec.setWidth_zero, BitVec.zero_shiftLeft, BitVec.or_zero]

theorem setWidth_weekend (w : BitVec 7) : w.setWidth 16 = 0#9 ++ w :=
  (BitVec.setWidth_eq_append (by decide)).trans (by rfl)

/-! ## The cells of a line (R170) -/

theorem State.settingWord_eq (s : State) (n : LineNo) : s.settingWord n =
    match (s.line n).mode with
    | .off => 0x0000#16 | .watched => 0x0001#16 | .passive => 0x0002#16 := by
  rw [State.settingWord]
  cases (s.line n).mode <;> rfl

/-- Four session status words stand at each line's place from 300h on. -/
theorem region_sessionStatusWord (n : LineNo) (k : Fin 4) :
    region (BitVec.ofNat 15 (0x300 + 4 * n.val + k.val)) = .sessionStatus n k := by
  have number : (BitVec.ofNat 15 (0x300 + 4 * n.val + k.val)).toNat = 0x300 + 4 * n.val + k.val := by
    rw [BitVec.toNat_ofNat]
    omega
  have line : lineOf ((0x300 + 4 * n.val + k.val) / 4) = n := Fin.ext (by
    rw [lineOf_val]
    omega)
  have word : quarter (0x300 + 4 * n.val + k.val) = k := Fin.ext (by
    rw [val_quarter]
    omega)
  rw [region, number, regionOf]
  repeat rw [if_neg (by omega)]
  rw [if_pos (by omega), line, word]

theorem Shows.sessionStatus {s : State} {addr : Addr} {n : LineNo} {k : Fin 4} {v : Word}
    (ho : s.areaOffset addr = some (BitVec.ofNat 15 (0x300 + 4 * n.val + k.val))) (word : k ≠ 0)
    (layout : s.statusWord n k = v) : Shows s addr v := by
  refine .of_overlay ho ?_ layout
  simp only [State.processorRead, region_sessionStatusWord]


theorem State.statusWord_slot (s : State) (n : LineNo) : s.statusWord n 1 =
    match s.session n with
    | some x => BitVec.ofNat 16 x.slot.val
    | none => 0xFFFF#16 := by
  cases h : s.session n <;> simp only [State.statusWord, h]

theorem State.statusWord_number {s : State} {n : LineNo} {x : Session} {a : Account}
    (hx : s.session n = some x) (ha : s.slot x.slot = some a) : s.statusWord n 2 = a.number := by
  simp only [State.statusWord, hx, State.numberOf, ha]

theorem State.statusWord_unnumbered {s : State} {n : LineNo} (hx : s.session n = none) :
    s.statusWord n 2 = 0#16 := by
  simp only [State.statusWord, hx]

theorem State.statusWord_charged (s : State) (n : LineNo) : s.statusWord n 3 =
    match s.session n with
    | some x => BitVec.ofNat 16
        (min (x.units[0] + x.units[1] + x.units[2] + x.units[3] + x.overrun) 65535)
    | none => 0#16 := by
  cases h : s.session n <;> simp only [State.statusWord, h]
  rfl

/-- The cells of a line that show its mode, its session's slot and number, and what it was charged. -/
theorem lineCellsShow {s : State} {addr : Addr} {o : Offset} (ho : s.areaOffset addr = some o)
    (n : LineNo) :
    (o = BitVec.ofNat 15 (0x100 + n.val) → Shows s addr (match (s.line n).mode with
        | .off => 0x0000#16 | .watched => 0x0001#16 | .passive => 0x0002#16))
    ∧ (o = BitVec.ofNat 15 (0x300 + 4 * n.val + 1) → Shows s addr (match s.session n with
        | some x => BitVec.ofNat 16 x.slot.val | none => 0xFFFF#16))
    ∧ (o = BitVec.ofNat 15 (0x300 + 4 * n.val + 2) → s.session n = none → Shows s addr 0#16)
    ∧ (o = BitVec.ofNat 15 (0x300 + 4 * n.val + 2) → ∀ x a, s.session n = some x →
        s.slot x.slot = some a → Shows s addr a.number)
    ∧ (o = BitVec.ofNat 15 (0x300 + 4 * n.val + 3) → Shows s addr (match s.session n with
        | some x => BitVec.ofNat 16
            (min (x.units[0] + x.units[1] + x.units[2] + x.units[3] + x.overrun) 65535)
        | none => 0#16)) := by
  refine ⟨?_, ?_, ?_, ?_, ?_⟩
  · rintro rfl
    refine .of_overlay ho ?_ (s.settingWord_eq n)
    simp only [State.processorRead, region_setting]
  · rintro rfl
    exact .sessionStatus (k := 1) ho (by decide) (s.statusWord_slot n)
  · rintro rfl hx
    exact .sessionStatus (k := 2) ho (by decide) (State.statusWord_unnumbered hx)
  · rintro rfl x a hx ha
    exact .sessionStatus (k := 2) ho (by decide) (State.statusWord_number hx ha)
  · rintro rfl
    exact .sessionStatus (k := 3) ho (by decide) (s.statusWord_charged n)

/-- Settles O53: each cell by its region, and each word in its layout. -/
theorem overlayReadsShowTheState : Obligations.OverlayReadsShowTheState := by
  intro s addr o ho
  refine ⟨lineCellsShow ho, ?_, ?_, ?_, ?_, ?_, ?_, ?_, ?_, ?_, ?_, ?_, fun b v => ?_, fun b => ?_, ?_,
    fun c => ?_⟩
  · rintro rfl
    refine ⟨BitVec.ofNat 8 s.attention.waitingBits,
      Shows.of_overlay ho rfl s.attention.maskWord_eq, fun k => ?_⟩
    rw [Attention.waitingBits_eq, getLsbD_bitsWhere]
  · rintro rfl
    refine ⟨BitVec.ofNat 8 s.attention.servedBits,
      Shows.of_overlay ho rfl s.attention.modeWord_eq, fun k => ?_⟩
    rw [Attention.servedBits_eq, getLsbD_bitsWhere]
  · rintro rfl next
    refine Shows.of_overlay ho rfl ((State.partStatusWord_eq next).trans ?_)
    cases s.plan.state <;> cases s.bus.latch.master <;> rfl
  · rintro rfl inside
    exact Shows.of_overlay ho rfl (Journal.headWord_eq inside)
  · rintro rfl
    exact Shows.of_overlay ho rfl (packWord_single _)
  · rintro rfl
    exact Shows.of_overlay ho rfl s.directory.staging.targetWord_eq
  · rintro rfl
    exact Shows.of_overlay ho rfl s.directory.staging.stateWord_eq
  · rintro rfl
    exact Shows.of_overlay ho rfl s.directory.staging.checkCell_eq
  · rintro rfl minute weekday
    exact Shows.of_overlay ho rfl (Meter.minuteWord_eq minute weekday)
  · rintro rfl
    exact Shows.of_overlay ho rfl rfl
  · rintro rfl
    exact Shows.of_overlay ho rfl (packWord_single _)
  · rintro rfl
    refine Shows.of_overlay ho ?_ rfl
    simp only [State.processorRead, region_tariff]
  · rintro rfl
    refine Shows.of_overlay ho ?_ rfl
    simp only [State.processorRead, region_bandStart]
  · rintro rfl
    exact Shows.of_overlay ho rfl (setWidth_weekend _)
  · rintro rfl
    refine Shows.of_overlay ho ?_ (s.permit c).word_eq
    simp only [State.processorRead, region_permit]

end Sys2Proof.Machine
end
